-- ==== Sys2Proof/Word.lean ====
section
/-!
DEFINITION. The widths of the block's words (R9, 00_scope.md; R110, 30_encoding.md; R60, 10_state.md).
Every value is unsigned (R11). Arithmetic is on naturals and cut to a width only where a rule says so (R12): the
definitions that do so stand in Machine/, not here.
-/

namespace Sys2Proof

/-- A host register, a sensor code, a duty, a table entry: 8 bits (R9). -/
abbrev Byte := BitVec 8

/-- An operation word: 16 bits, delivered whole (R110). -/
abbrev OpWord := BitVec 16

/-- A host register address: 6 bits, 0x00 to 0x3F (R60, R117). -/
abbrev RegAddr := BitVec 6

/-- A commutation step: POS, PTGT, APPSTEP and an index into SEQ and CHMAP, 4 bits (R9, R37, R44). -/
abbrev StepIx := BitVec 4

/-- A timer phase: 9 bits, 0 to 509 (R9, R41, R134). -/
abbrev Phase := BitVec 9

/-- An output channel, 0 to 3: channels 0 and 1 belong to Timer A, 2 and 3 to Timer B (R9). -/
abbrev Chan := Fin 4

/-- `PERIOD`: the phase steps of one timer period (R9, R134). -/
abbrev period : Nat := 510

/-- `SPAN`: one electrical step in units of FractionalPosition (R9, R33). -/
abbrev span : Nat := 65536

/-- The phase at which a timer reaches TOP (R135). -/
abbrev topPhase : Nat := 255

end Sys2Proof
end

