-- ==== Sys2Proof/Syntax.lean ====
section
/-!
DEFINITION. The nine operations of the opcode table (R118, 30_encoding.md), the named host registers their address field
selects (R60, 10_state.md), and the lines of the assembler notation (R121, R122, 30_encoding.md).
-/

namespace Sys2Proof

/-- The whole operation set (R118, R273). A reserved word is no operation of the set: decoding answers none for it and the
machine gives it the effect of R112. -/
inductive Instr where
  /-- WR: write `data` to the register at `addr` (R262). -/
  | wr (addr : RegAddr) (data : Byte)
  /-- RD: read the register at `addr` (R261). -/
  | rd (addr : RegAddr)
  /-- NOP (R263). -/
  | nop
  /-- START (R264). -/
  | start
  /-- STOP (R266). -/
  | stop
  /-- CLRDIAG (R267). -/
  | clrdiag
  /-- EVT_SYSCLK: one system-clock edge (R131). -/
  | evtSysclk
  /-- EVT_SENSOR: the Hall-sensor input now reads `code` (R160). -/
  | evtSensor (code : Byte)
  /-- EVT_RESET: the reset input (R268). -/
  | evtReset
  deriving DecidableEq, Repr

/-- The 64 host registers by name (R60). The four OCR, sixteen SEQ and sixteen CHMAP registers are indexed. -/
inductive Reg where
  | ctrl | status | err | seqlen | posapp | pstat | phofs | pwmmax | alignLo | alignHi
  | duty | sfcnt | sensin | outen
  | rateLo | rateHi | fpLo | fpHi | icLo | icHi | ifLo | ifHi | ovfLo | ovfHi
  | phaLo | phaHi | phbLo | phbHi
  | ocr (c : Chan)
  | seq (i : StepIx)
  | chmap (i : StepIx)
  deriving DecidableEq, Repr

/-- The access codes of R60: read-write, read-write locked while RUN = 1, read-only. -/
inductive Access where
  | rw | rwl | ro
  deriving DecidableEq, Repr

/-- A line of the assembler notation, its operands the numbers as written (R121) with the pseudo-instructions of R122.
An operand that does not fit its field is an assembly error: WellFormed.lean. -/
inductive AsmLine where
  | wr (addr data : Nat)
  | rd (addr : Nat)
  | nop | start | stop | clrdiag
  | sysclk
  | sensor (code : Nat)
  | reset
  /-- `CLK n`: n copies of SYSCLK. -/
  | clk (n : Nat)
  /-- `WR16 lo, v`. -/
  | wr16 (lo v : Nat)
  /-- `RD16 lo`. -/
  | rd16 (lo : Nat)
  /-- `RDIV`: the four reads of the IntervalSample. -/
  | rdiv
  /-- `CFGSEQ c0, ..., c(N-1)`. -/
  | cfgseq (codes : List Nat)
  /-- `CFGMAP m0, ..., m(K-1)`. -/
  | cfgmap (maps : List Nat)
  deriving DecidableEq, Repr

end Sys2Proof
end

