-- ==== Sys2Proof/WellFormed.lean ====
section
/-!
DEFINITION. Which terms are well formed. An `Instr` carries its operands at the widths of its fields, and every value of ADDR,
DATA and the sensor code is legal (R113, R114, R116, R117, 30_encoding.md), so every one is. An assembler line is checked:
"An operand that does not fit its field ... is an assembly error. The assembler never cuts it to fit" (R121), and each
pseudo-instruction has its condition (R122).
-/

namespace Sys2Proof

/-- Every operation with operands of the fields' widths is legal (R113, R114, R115, R116, R118). -/
def Instr.wellFormed : Instr → Bool
  | .wr _ _ => true
  | .rd _ => true
  | .nop => true
  | .start => true
  | .stop => true
  | .clrdiag => true
  | .evtSysclk => true
  | .evtSensor _ => true
  | .evtReset => true

namespace AsmLine

/-- An address operand fits its 6-bit field (R121). -/
def addrFits (a : Nat) : Bool := decide (a ≤ 0x3F)

/-- A data or code operand fits its 8-bit field (R121). -/
def dataFits (d : Nat) : Bool := decide (d ≤ 0xFF)

/-- The snap addresses whose group has two bytes: RATE, FP, OVFCNT, PHA and PHB (R94, R122). The group of IC_LO has four. -/
def twoByteSnaps : List Nat := [0x0E, 0x10, 0x16, 0x18, 0x1A]

/-- The checks of R121 and the condition column of R122. -/
def wellFormed : AsmLine → Bool
  | .wr a d => addrFits a && dataFits d
  | .rd a => addrFits a
  | .nop => true
  | .start => true
  | .stop => true
  | .clrdiag => true
  | .sysclk => true
  | .sensor c => dataFits c
  | .reset => true
  | .clk n => decide (1 ≤ n)
  | .wr16 lo v => decide (lo = 0x08) && decide (v ≤ 0x1FF)
  | .rd16 lo => twoByteSnaps.contains lo
  | .rdiv => true
  | .cfgseq cs => decide (1 ≤ cs.length) && decide (cs.length ≤ 16) && cs.all dataFits
  | .cfgmap ms => decide (1 ≤ ms.length) && decide (ms.length ≤ 16) && ms.all dataFits

end AsmLine
end Sys2Proof
end

