-- ==== Sys2Proof/Decode.lean ====
section
/-!
DEFINITION. Decoding is a total function from 16-bit words (R111, 30_encoding.md): an operation, or none for a reserved word.
The encoder follows the format tables R113 to R116. The opcode map R118 is kept as data beside them, so that the two
readings of the encoding can be held against each other.
-/

namespace Sys2Proof

/-! ### Fields of an operation word (R110, R113 to R117) -/

/-- CL = w[15:14], the class (R110). -/
def classField (w : OpWord) : BitVec 2 := w.extractLsb' 14 2

/-- ADDR = w[13:8] (R117). -/
def addrField (w : OpWord) : RegAddr := w.extractLsb' 8 6

/-- DATA = w[7:0] (R117). -/
def dataField (w : OpWord) : Byte := w.extractLsb' 0 8

/-- CODE = w[13:10] (R117). -/
def codeField (w : OpWord) : BitVec 4 := w.extractLsb' 10 4

/-- ZERO of format C, w[9:0] (R115). -/
def commandZero (w : OpWord) : BitVec 10 := w.extractLsb' 0 10

/-- ZERO of format E, w[9:8] (R116). -/
def eventZero (w : OpWord) : BitVec 2 := w.extractLsb' 8 2

/-! ### The decoder -/

/-- Format R, class 01: the low byte must be 0 (R114). -/
def decodeRead (w : OpWord) : Option Instr :=
  if dataField w = 0 then some (.rd (addrField w)) else none

/-- Format C, class 10 (R115): CODE 4 to 15 and a nonzero ZERO field are reserved. -/
def decodeCommand (w : OpWord) : Option Instr :=
  if commandZero w ≠ 0 then none
  else if codeField w = 0 then some .nop
  else if codeField w = 1 then some .start
  else if codeField w = 2 then some .stop
  else if codeField w = 3 then some .clrdiag
  else none

/-- Format E, class 11 (R116): CODE 3 to 15, a nonzero ZERO field, and DATA with CODE 0 or 2 are reserved. -/
def decodeEvent (w : OpWord) : Option Instr :=
  if eventZero w ≠ 0 then none
  else if codeField w = 0 then (if dataField w = 0 then some .evtSysclk else none)
  else if codeField w = 1 then some (.evtSensor (dataField w))
  else if codeField w = 2 then (if dataField w = 0 then some .evtReset else none)
  else none

/-- `decode` (R111). None is RESERVED. No mode changes it (R120). -/
def decode (w : OpWord) : Option Instr :=
  if classField w = 0 then some (.wr (addrField w) (dataField w))
  else if classField w = 1 then decodeRead w
  else if classField w = 2 then decodeCommand w
  else decodeEvent w

/-! ### The encoder, from the format tables -/

/-- Format W (R113). -/
def encodeWrite (addr : RegAddr) (data : Byte) : OpWord := 0b00#2 ++ addr ++ data

/-- Format R (R114). -/
def encodeRead (addr : RegAddr) : OpWord := 0b01#2 ++ addr ++ 0#8

/-- Format C (R115). -/
def encodeCommand (code : BitVec 4) : OpWord := 0b10#2 ++ code ++ 0#10

/-- Format E (R116). -/
def encodeEvent (code : BitVec 4) (data : Byte) : OpWord := 0b11#2 ++ code ++ 0b00#2 ++ data

/-- The word of an operation. -/
def encode : Instr → OpWord
  | .wr addr data => encodeWrite addr data
  | .rd addr => encodeRead addr
  | .nop => encodeCommand 0
  | .start => encodeCommand 1
  | .stop => encodeCommand 2
  | .clrdiag => encodeCommand 3
  | .evtSysclk => encodeEvent 0 0
  | .evtSensor code => encodeEvent 1 code
  | .evtReset => encodeEvent 2 0

/-! ### The opcode map as data (R118) -/

/-- One row of R118: a word w is of the row when w AND mask = match. -/
structure OpRow where
  mnemonic : String
  bits : OpWord
  mask : OpWord
  deriving DecidableEq, Repr

/-- w is of the row (R118). -/
def OpRow.matchesWord (r : OpRow) (w : OpWord) : Bool := decide (w &&& r.mask = r.bits)

/-- The row of each operation (R118). -/
def opRow : Instr → OpRow
  | .wr _ _ => ⟨"WR", 0x0000, 0xC000⟩
  | .rd _ => ⟨"RD", 0x4000, 0xC0FF⟩
  | .nop => ⟨"NOP", 0x8000, 0xFFFF⟩
  | .start => ⟨"START", 0x8400, 0xFFFF⟩
  | .stop => ⟨"STOP", 0x8800, 0xFFFF⟩
  | .clrdiag => ⟨"CLRDIAG", 0x8C00, 0xFFFF⟩
  | .evtSysclk => ⟨"EVT_SYSCLK", 0xC000, 0xFFFF⟩
  | .evtSensor _ => ⟨"EVT_SENSOR", 0xC400, 0xFF00⟩
  | .evtReset => ⟨"EVT_RESET", 0xC800, 0xFFFF⟩

/-- The complete opcode map, in the table's order (R118). -/
def opcodeMap : List OpRow :=
  [opRow (.wr 0 0), opRow (.rd 0), opRow .nop, opRow .start, opRow .stop, opRow .clrdiag, opRow .evtSysclk,
    opRow (.evtSensor 0), opRow .evtReset]

/-! ### The host's question of the decoder -/

/-- The operation the decoder reads from an instruction of `nbits` bits whose bits are `w`. Every operation is one 16-bit word
delivered whole (R110), bit 0 its least significant bit (R11); bits above `nbits` are 0. A number that does not fit 16 bits is
no operation word. -/
def decodeTableWord (nbits w : Nat) : Option Instr :=
  let bits := w % 2 ^ nbits
  if bits < 2 ^ 16 then decode (BitVec.ofNat 16 bits) else none

end Sys2Proof
end

