-- ==== Sys2Proof/Config.lean ====
section
/-!
DEFINITION. The build-time arguments of a model (R10, 00_scope.md; the named parameters of 92_eei_decisions.md), with the
defaults of the spec, and the constraints a table must meet (R232, 44_interpolator_pwm.md; I8, 93).
A machine holds one `Config` beside its state and no operation writes it, so a claim over every state is a claim over every
choice of parameters (log 4).
-/

namespace Sys2Proof

/-- The build parameters (R10) and the platform address (R97, D43). -/
structure Config where
  /-- PRESC_A: the divisor of Timer A for each frequency class, if it has one (R132, D7). -/
  prescA : Vector (Option Nat) 8
  /-- PRESC_B: the same for Timer B. -/
  prescB : Vector (Option Nat) 8
  /-- ENV_ROM, the EnvelopeTable: entry e is the duty multiplier e/255 (R55, R231). -/
  envRom : Vector Byte 256
  /-- FP_START: what Accept, Acquire and START set FP to (R33, D5). -/
  fpStart : BitVec 16
  /-- START_SKEW: the system clocks by which Timer B's prescaler starts late (R137, D28). -/
  startSkew : Nat
  /-- CORE_BASE: the platform address of register 0x00, which no rule uses (R97, D43). -/
  coreBase : Option Nat
  deriving DecidableEq, Repr

/-- Row 0 of the table of R231. -/
def envRow0 : List Byte := [0, 0, 0, 0, 0, 0, 0, 0, 1, 1, 1, 1, 1, 2, 2, 2]

/-- Row 16 of the table of R231. -/
def envRow1 : List Byte := [2, 3, 3, 3, 4, 4, 5, 5, 6, 6, 6, 7, 8, 8, 9, 9]

/-- Row 32 of the table of R231. -/
def envRow2 : List Byte := [10, 10, 11, 12, 12, 13, 14, 14, 15, 16, 17, 17, 18, 19, 20, 21]

/-- Row 48 of the table of R231. -/
def envRow3 : List Byte := [22, 23, 23, 24, 25, 26, 27, 28, 29, 30, 31, 32, 33, 34, 35, 37]

/-- Row 64 of the table of R231. -/
def envRow4 : List Byte := [38, 39, 40, 41, 42, 43, 45, 46, 47, 48, 49, 51, 52, 53, 54, 56]

/-- Row 80 of the table of R231. -/
def envRow5 : List Byte := [57, 58, 60, 61, 62, 64, 65, 66, 68, 69, 71, 72, 73, 75, 76, 78]

/-- Row 96 of the table of R231. -/
def envRow6 : List Byte := [79, 81, 82, 84, 85, 87, 88, 90, 91, 93, 94, 96, 97, 99, 100, 102]

/-- Row 112 of the table of R231. -/
def envRow7 : List Byte := [103, 105, 106, 108, 109, 111, 113, 114, 116, 117, 119, 120, 122, 124, 125, 127]

/-- Row 128 of the table of R231. -/
def envRow8 : List Byte := [128, 130, 131, 133, 135, 136, 138, 139, 141, 142, 144, 146, 147, 149, 150, 152]

/-- Row 144 of the table of R231. -/
def envRow9 : List Byte := [153, 155, 156, 158, 159, 161, 162, 164, 165, 167, 168, 170, 171, 173, 174, 176]

/-- Row 160 of the table of R231. -/
def envRow10 : List Byte := [177, 179, 180, 182, 183, 184, 186, 187, 189, 190, 191, 193, 194, 195, 197, 198]

/-- Row 176 of the table of R231. -/
def envRow11 : List Byte := [199, 201, 202, 203, 204, 206, 207, 208, 209, 210, 212, 213, 214, 215, 216, 217]

/-- Row 192 of the table of R231. -/
def envRow12 : List Byte := [218, 220, 221, 222, 223, 224, 225, 226, 227, 228, 229, 230, 231, 232, 232, 233]

/-- Row 208 of the table of R231. -/
def envRow13 : List Byte := [234, 235, 236, 237, 238, 238, 239, 240, 241, 241, 242, 243, 243, 244, 245, 245]

/-- Row 224 of the table of R231. -/
def envRow14 : List Byte := [246, 246, 247, 247, 248, 249, 249, 249, 250, 250, 251, 251, 252, 252, 252, 253]

/-- Row 240 of the table of R231. -/
def envRow15 : List Byte := [253, 253, 253, 254, 254, 254, 254, 254, 255, 255, 255, 255, 255, 255, 255, 255]

/-- The default ENV_ROM, row after row: a raised cosine from 0 to 255 (R231). -/
def envTable : List Byte :=
  envRow0 ++ envRow1 ++ envRow2 ++ envRow3 ++ envRow4 ++ envRow5 ++ envRow6 ++ envRow7
    ++ envRow8 ++ envRow9 ++ envRow10 ++ envRow11 ++ envRow12 ++ envRow13 ++ envRow14 ++ envRow15

theorem envTable_length : envTable.length = 256 := by
  simp only [envTable, List.length_append]
  rfl

/-- The default ENV_ROM as the table of 256 entries (R231). -/
def envRomDefault : Vector Byte 256 := ⟨envTable.toArray, envTable_length⟩

/-- The default PRESC_A: Timer A has no /32 and no /128 (R132). -/
def prescADefault : Vector (Option Nat) 8 :=
  #v[some 1, some 8, none, some 64, none, some 256, some 1024, none]

/-- The default PRESC_B (R132). -/
def prescBDefault : Vector (Option Nat) 8 :=
  #v[some 1, some 8, some 32, some 64, some 128, some 256, some 1024, none]

namespace Config

/-- The defaults this spec's vectors use (R10). -/
def default : Config where
  prescA := prescADefault
  prescB := prescBDefault
  envRom := envRomDefault
  fpStart := 0
  startSkew := 0
  coreBase := none

/-- A conforming table: ENV_ROM[0] <= ENV_ROM[i] <= ENV_ROM[255] for every i (R232). -/
def romConforms (c : Config) : Bool :=
  c.envRom.toList.all fun e => decide (c.envRom[0] ≤ e) && decide (e ≤ c.envRom[255])

/-- A divisor a model may be built with: not 0 (I8), and at most 1024, so that a prescaler counter of 10 bits can hold
0 to divisor-1 (R41). The upper bound is DEDUCED from the counter's width (log 5). -/
def divisorOk : Option Nat → Bool
  | none => true
  | some p => decide (1 ≤ p) && decide (p ≤ 1024)

/-- The parameters a model may be built with (93, Part 1: "A model must not be built with them" of the others).
FP_START fits by its type. -/
def wf (c : Config) : Bool :=
  c.prescA.toList.all divisorOk && c.prescB.toList.all divisorOk && c.romConforms

end Config
end Sys2Proof
end

