-- ==== Sys2Proof/Machine/State.lean ====
section
/-!
DEFINITION. The block's state: the record of R58 (10_state.md), one field for each row, grouped by the part of the block that
owns it (R1, 00_scope.md), beside the build parameters, the operation port and its read-data output.
The state after reset is R330 (70_reset_and_hazards.md).
-/

namespace Sys2Proof.Machine

/-! ### Names that live inside the state -/

/-- CTRL.PHMODE: 0 DELAY, 1 ADVANCE (R48, R211). -/
inductive PhaseMode where
  | delay | advance
  deriving DecidableEq, Repr

/-- CTRL.FPMODE: 0 WRAP, 1 SATURATE (R48, R236). -/
inductive FpMode where
  | wrap | saturate
  deriving DecidableEq, Repr

/-- DIR: 0 forward, 1 reverse (R37). -/
inductive Direction where
  | forward | reverse
  deriving DecidableEq, Repr

/-- The mode of a channel in a channel map: 0 OFF, 1 PWM, 2 ON, 3 PWM_INV (R56). -/
inductive ChanMode where
  | off | pwm | on | pwmInv
  deriving DecidableEq, Repr

/-- The level of an output pin: Z (disabled, not driven), 0 or 1 (R54, R140). -/
inductive PinLevel where
  | z | low | high
  deriving DecidableEq, Repr

/-- The error conditions the block detects, E1 to E8 (R300). -/
inductive ErrorCode where
  | config | sensor | starve | cold | illop | lockwr | rowr | drift
  deriving DecidableEq, Repr

/-! ### The parts of the state -/

/-- What the host configures: CTRL, SEQLEN, SEQ, CHMAP, PHOFS, PWMMAX and ALIGN (R38, R45 to R48, R56). -/
structure Conf where
  fclass : BitVec 3
  phmode : PhaseMode
  fpmode : FpMode
  seqlen : Byte
  seq : Vector Byte 16
  chmap : Vector Byte 16
  phofs : Byte
  pwmmax : Byte
  align : BitVec 9
  deriving DecidableEq, Repr

/-- The sequencer's position: POS, PV and DIR (R37). -/
structure Sequencer where
  pos : StepIx
  pv : Bool
  dir : Direction
  deriving DecidableEq, Repr

/-- Timers A and B: phases, prescaler counters and the startup skew still to pass (R41). -/
structure Timers where
  pha : Phase
  phb : Phase
  psca : BitVec 10
  pscb : BitVec 10
  skew : Nat
  deriving DecidableEq, Repr

/-- The interval timer: OVFCNT, LASTPH and REFV (R36). -/
structure Interval where
  ovfcnt : BitVec 16
  lastph : Phase
  refv : Bool
  deriving DecidableEq, Repr

/-- The estimator: the IntervalSample IC and IF, RATE and IVALID (R34, R35, R49). IF is `ifine`. -/
structure Estimator where
  ic : BitVec 16
  ifine : BitVec 9
  rate : BitVec 16
  ivalid : Bool
  deriving DecidableEq, Repr

/-- The interpolator: FP, OVR and DUTY (R33, R43, R49). -/
structure Interpolator where
  fp : BitVec 16
  ovr : Bool
  duty : Byte
  deriving DecidableEq, Repr

/-- The compensator: PEND, PTGT, PCNT, APPSTEP and APPV (R44). -/
structure Compensator where
  pend : Bool
  ptgt : StepIx
  pcnt : BitVec 16
  appstep : StepIx
  appv : Bool
  deriving DecidableEq, Repr

/-- The four output channels: OCR, OCRBUF, EN and POL (R42). -/
structure Outputs where
  ocr : Vector Byte 4
  ocrbuf : Vector Byte 4
  en : Vector Bool 4
  pol : Vector Bool 4
  deriving DecidableEq, Repr

/-- The sticky diagnostics: the error flags, DRIFT and the sensor-fault count (R49, R50, R51). -/
structure Diag where
  illop : Bool
  lockwr : Bool
  rowr : Bool
  slost : Bool
  drift : Bool
  sfcnt : Byte
  deriving DecidableEq, Repr

/-- The six snapshot shadows (R52). -/
structure Shadows where
  rate : Byte
  fp : Byte
  iv : BitVec 24
  ovf : Byte
  pha : Byte
  phb : Byte
  deriving DecidableEq, Repr

/-- The block's state (R58), its build parameters (R10), its operation port and its read-data output. -/
structure State where
  /-- The build parameters, ENV_ROM among them; no operation writes them (R10, R55, log 4). -/
  cfg : Config
  /-- The operation words still to be taken, oldest first (R7; the model's own field, log 1). -/
  port : List OpWord
  /-- RDATA of the operation just taken (R53; the model's own field, log 3). -/
  rdata : Option Byte
  conf : Conf
  /-- RUN: the block is started (R49). -/
  run : Bool
  /-- CFGFLT: a configuration fault occurred, sticky until reset (R49). -/
  cfgflt : Bool
  /-- SENSIN: the live Hall-sensor code (R39). -/
  sensin : Byte
  /-- SPEND: the latched sensor-change notification (R40). -/
  spend : Bool
  seqr : Sequencer
  timers : Timers
  interval : Interval
  est : Estimator
  interp : Interpolator
  comp : Compensator
  out : Outputs
  diag : Diag
  shadow : Shadows
  deriving DecidableEq, Repr

/-! ### How a step can stop -/

/-- R314 (60_exceptions.md) sorts the block's conditions. No step of this model stops with a fault, since every operation is
enabled in every state and every one terminates. -/
inductive Fault where
  /-- CFGFLT = 1, the block's one fatal state (R300 E1, R314). No operation raises it as the outcome of a step: the block goes
  on taking operations, RD and EVT_RESET among them. `Safety.lean` gives it as the class of a state of a run that reached
  CFGFLT = 1. Safe: a claim about a next state also covers the states after the fault (log 6). -/
  | config
  deriving DecidableEq, Repr

/-- No step of this model is refused: every one of the 65536 words has a meaning (R314). -/
inductive Refusal where
  /-- An instruction without a meaning yet. No arm of the dispatcher raises it: all nine have their meaning. Safe. -/
  | notModelled (mnemonic : String)
  deriving DecidableEq, Repr

/-! ### Reset -/

/-- Every row of R58 at its reset value, for the build parameters `cfg` and the words `port` still to come. ENV_ROM and the other
parameters are no state and keep their values; the port is the environment's (R268, R330, log 1, log 4). -/
def State.atReset (cfg : Config) (port : List OpWord) : State where
  cfg := cfg
  port := port
  rdata := none
  conf := { fclass := 0, phmode := .delay, fpmode := .wrap, seqlen := 0, seq := .replicate 16 0, chmap := .replicate 16 0,
            phofs := 0, pwmmax := 0, align := 0 }
  run := false
  cfgflt := false
  sensin := 0
  spend := false
  seqr := { pos := 0, pv := false, dir := .forward }
  timers := { pha := 0, phb := 0, psca := 0, pscb := 0, skew := 0 }
  interval := { ovfcnt := 0, lastph := 0, refv := false }
  est := { ic := 0, ifine := 0, rate := 0, ivalid := false }
  interp := { fp := 0, ovr := false, duty := 0 }
  comp := { pend := false, ptgt := 0, pcnt := 0, appstep := 0, appv := false }
  out := { ocr := .replicate 4 0, ocrbuf := .replicate 4 0, en := .replicate 4 false, pol := .replicate 4 false }
  diag := { illop := false, lockwr := false, rowr := false, slost := false, drift := false, sfcnt := 0 }
  shadow := { rate := 0, fp := 0, iv := 0, ovf := 0, pha := 0, phb := 0 }

/-- The machine right after reset (R330), with the spec's default parameters and no operation waiting on the port. -/
def State.reset : State := State.atReset Config.default []

end Sys2Proof.Machine
end

