-- ==== Sys2Proof/Machine/Operands.lean ====
section
/-!
DEFINITION. Operand forms and the layout of register bytes: which register an address names and its access code (R60, 10_state.md),
the bit layout of the packed registers (R61 to R78), the byte order of register pairs (R91, 20_memory.md) and the two-bit channel
modes of a map (R56).
-/

namespace Sys2Proof.Machine

/-! ### Bits and bytes -/

/-- The byte with the given bits, bit 7 first, as the spec writes a concatenation (R11). -/
def packByte (b7 b6 b5 b4 b3 b2 b1 b0 : Bool) : Byte :=
  BitVec.ofBool b7 ++ BitVec.ofBool b6 ++ BitVec.ofBool b5 ++ BitVec.ofBool b4 ++ BitVec.ofBool b3 ++ BitVec.ofBool b2 ++ BitVec.ofBool b1 ++ BitVec.ofBool b0

/-- v[7:0] of a 16-bit value (R91). -/
def lo16 (v : BitVec 16) : Byte := v.extractLsb' 0 8

/-- v[15:8] of a 16-bit value (R91). -/
def hi16 (v : BitVec 16) : Byte := v.extractLsb' 8 8

/-- v[7:0] of a 9-bit value (R91). -/
def lo9 (v : BitVec 9) : Byte := v.extractLsb' 0 8

/-- zext_8(v[8]) of a 9-bit value (R69, R78). -/
def hi9 (v : BitVec 9) : Byte := (v.extractLsb' 8 1).setWidth 8

/-- The 9-bit value with the given top bit and low byte (R69). -/
def join9 (top : Bool) (low : Byte) : BitVec 9 := BitVec.ofBool top ++ low

/-! ### The register map -/

/-- The registers at 0x00 to 0x1B, in address order (R60). -/
def lowRegs : List Reg :=
  [.ctrl, .status, .err, .seqlen, .posapp, .pstat, .phofs, .pwmmax, .alignLo, .alignHi, .duty, .sfcnt, .sensin, .outen]
    ++ [.rateLo, .rateHi, .fpLo, .fpHi, .icLo, .icHi, .ifLo, .ifHi, .ovfLo, .ovfHi, .phaLo, .phaHi, .phbLo, .phbHi]

/-- The register an address names; every address is mapped (R60, R97). The index of OCR, SEQ and CHMAP is the low bits of the
address, since 0x1C, 0x20 and 0x30 are multiples of their group's size. -/
def regAt (a : RegAddr) : Reg :=
  match lowRegs[a.toNat]? with
  | some r => r
  | none =>
    if a.toNat < 0x20 then .ocr (a.extractLsb' 0 2).toFin
    else if a.toNat < 0x30 then .seq (a.extractLsb' 0 4)
    else .chmap (a.extractLsb' 0 4)

/-- The address column of R60. -/
def regAddr : Reg → RegAddr
  | .ctrl => 0x00 | .status => 0x01 | .err => 0x02 | .seqlen => 0x03 | .posapp => 0x04 | .pstat => 0x05
  | .phofs => 0x06 | .pwmmax => 0x07 | .alignLo => 0x08 | .alignHi => 0x09
  | .duty => 0x0A | .sfcnt => 0x0B | .sensin => 0x0C | .outen => 0x0D
  | .rateLo => 0x0E | .rateHi => 0x0F | .fpLo => 0x10 | .fpHi => 0x11
  | .icLo => 0x12 | .icHi => 0x13 | .ifLo => 0x14 | .ifHi => 0x15
  | .ovfLo => 0x16 | .ovfHi => 0x17 | .phaLo => 0x18 | .phaHi => 0x19 | .phbLo => 0x1A | .phbHi => 0x1B
  | .ocr c => 0x1C + BitVec.ofNat 6 c.val
  | .seq i => 0x20 + i.setWidth 6
  | .chmap i => 0x30 + i.setWidth 6

/-- The access column of R60. -/
def regAccess : Reg → Access
  | .ctrl | .seqlen | .phofs | .alignLo | .alignHi | .seq _ | .chmap _ => .rwl
  | .pwmmax => .rw
  | .status | .err | .posapp | .pstat | .duty | .sfcnt | .sensin | .outen => .ro
  | .rateLo | .rateHi | .fpLo | .fpHi | .icLo | .icHi | .ifLo | .ifHi | .ovfLo | .ovfHi => .ro
  | .phaLo | .phaHi | .phbLo | .phbHi | .ocr _ => .ro

/-- The platform address of a register, where the platform fixes CORE_BASE (R97). No rule of the block depends on it. -/
def platformAddr (cfg : Config) (a : RegAddr) : Option Nat := cfg.coreBase.map (· + a.toNat)

/-! ### Packed registers -/

/-- PHMODE as its bit (R48). -/
def PhaseMode.bit : PhaseMode → Bool
  | .delay => false
  | .advance => true

/-- PHMODE of a bit (R48). -/
def PhaseMode.ofBit (b : Bool) : PhaseMode := if b then .advance else .delay

/-- FPMODE as its bit (R48). -/
def FpMode.bit : FpMode → Bool
  | .wrap => false
  | .saturate => true

/-- FPMODE of a bit (R48). -/
def FpMode.ofBit (b : Bool) : FpMode := if b then .saturate else .wrap

/-- DIR as its bit (R37). -/
def Direction.bit : Direction → Bool
  | .forward => false
  | .reverse => true

/-- CTRL reads 000, FPMODE, PHMODE, FCLASS (R61). -/
def ctrlByte (s : State) : Byte :=
  0b000#3 ++ BitVec.ofBool s.conf.fpmode.bit ++ BitVec.ofBool s.conf.phmode.bit ++ s.conf.fclass

/-- STATUS reads PEND, DRIFT, OVR, DIR, IVALID, PV, CFGFLT, RUN (R62). -/
def statusByte (s : State) : Byte :=
  packByte s.comp.pend s.diag.drift s.interp.ovr s.seqr.dir.bit s.est.ivalid s.seqr.pv s.cfgflt s.run

/-- ERR reads 0000, SLOST, ROWR, LOCKWR, ILLOP (R63). -/
def errByte (s : State) : Byte :=
  packByte false false false false s.diag.slost s.diag.rowr s.diag.lockwr s.diag.illop

/-- POSAPP reads APPSTEP, POS (R65). -/
def posappByte (s : State) : Byte := s.comp.appstep ++ s.seqr.pos

/-- PSTAT reads 0, SPEND, REFV, APPV, PTGT (R66). -/
def pstatByte (s : State) : Byte :=
  0b0#1 ++ BitVec.ofBool s.spend ++ BitVec.ofBool s.interval.refv ++ BitVec.ofBool s.comp.appv ++ s.comp.ptgt

/-- OUTEN reads POL[3..0], EN[3..0] (R73). -/
def outenByte (s : State) : Byte :=
  packByte s.out.pol[3] s.out.pol[2] s.out.pol[1] s.out.pol[0] s.out.en[3] s.out.en[2] s.out.en[1] s.out.en[0]

/-- What SH_IV holds: zext_8(IF[8]), IF[7:0], IC[15:8] (R52, R76). -/
def ivHigh (e : Estimator) : BitVec 24 := hi9 e.ifine ++ lo9 e.ifine ++ hi16 e.ic

/-- A write of d to CTRL: FCLASS is d[2:0], PHMODE d[3], FPMODE d[4], and d[7:5] is ignored (R61). -/
def Conf.setCtrl (d : Byte) (c : Conf) : Conf :=
  { c with fclass := d.extractLsb' 0 3, phmode := .ofBit (d.getLsbD 3), fpmode := .ofBit (d.getLsbD 4) }

/-- A write of d to ALIGN_LO (R69). -/
def Conf.setAlignLo (d : Byte) (c : Conf) : Conf := { c with align := join9 (c.align.getLsbD 8) d }

/-- A write of d to ALIGN_HI takes d[0] and ignores d[7:1] (R69). -/
def Conf.setAlignHi (d : Byte) (c : Conf) : Conf := { c with align := join9 (d.getLsbD 0) (lo9 c.align) }

/-! ### Channel maps -/

/-- The two-bit code of a channel mode (R56). -/
def ChanMode.ofCode (m : BitVec 2) : ChanMode :=
  if m = 0 then .off else if m = 1 then .pwm else if m = 2 then .on else .pwmInv

/-- The mode of channel c in a map: its bits [2c+1:2c] (R56). -/
def chanMode (map : Byte) (c : Chan) : ChanMode := .ofCode (map.extractLsb' (2 * c.val) 2)

/-- CHMAP[s], s a 4-bit step (R56). -/
def Conf.mapAt (conf : Conf) (s : StepIx) : Byte := conf.chmap[s.toNat]

/-- SEQ[i], i a 4-bit step (R38). -/
def Conf.seqAt (conf : Conf) (i : StepIx) : Byte := conf.seq[i.toNat]

end Sys2Proof.Machine
end

