-- ==== Sys2Proof/Machine/Flags.lean ====
section
/-!
DEFINITION. The flag computations and the saturating and modular counts: what sets OVR (R236), DRIFT (R138), SPEND and SLOST
(R160), when a prescaler wraps (R133), a timer overflows or reaches TOP (R135), and the counts of R12, R51 and R143.
-/

namespace Sys2Proof.Machine

/-! ### Counts -/

/-- sat_8(v + 1) (R12, R51). -/
def satInc8 (v : Byte) : Byte := BitVec.ofNat 8 (min (v.toNat + 1) 0xFF)

/-- sat_16(v + 1) (R12, R143). -/
def satInc16 (v : BitVec 16) : BitVec 16 := BitVec.ofNat 16 (min (v.toNat + 1) 0xFFFF)

/-- (p + 1) mod 510: one phase step (R131, R134). -/
def nextPhase (p : Phase) : Phase := BitVec.ofNat 9 ((p.toNat + 1) % period)

/-- (p + 1) mod N: the forward neighbour of a step (R163). N is cut to 4 bits with its index (log 7). -/
def stepForward (n : Byte) (p : StepIx) : StepIx := BitVec.ofNat 4 ((p.toNat + 1) % n.toNat)

/-- (p + N - 1) mod N: the reverse neighbour of a step (R163). -/
def stepReverse (n : Byte) (p : StepIx) : StepIx := BitVec.ofNat 4 ((p.toNat + n.toNat - 1) % n.toNat)

/-! ### Timer conditions -/

/-- PSC = P - 1, written PSC + 1 = P: the prescaler wraps on this clock (R131, R133). A timer without a divisor, which no running
block has (R265), never wraps (log 5). -/
def pscWraps (p : Option Nat) (psc : BitVec 10) : Bool := decide (p = some (psc.toNat + 1))

/-- The prescaler counter after one system clock (R131). -/
def pscNext (p : Option Nat) (psc : BitVec 10) : BitVec 10 := if pscWraps p psc then 0 else psc + 1

/-- A phase just reached is BOTTOM: the timer overflows (R135). -/
def isBottom (p : Phase) : Bool := decide (p = 0)

/-- A phase just reached is TOP (R135). -/
def isTop (p : Phase) : Bool := decide (p.toNat = topPhase)

/-- The circular distance of Timer A's phase from BOTTOM is more than one phase step (R138). -/
def drifted (pha : Phase) : Bool := decide (min pha.toNat (period - pha.toNat) > 1)

/-! ### Interpolator and sensor conditions -/

/-- FP + RATE as a 17-bit sum (R236). -/
def fpSum (fp rate : BitVec 16) : Nat := fp.toNat + rate.toNat

/-- The advance passes 0xFFFF: OVR (R236). -/
def fpOverruns (fp rate : BitVec 16) : Bool := decide (fpSum fp rate > 0xFFFF)

/-- FP after the advance: WRAP takes the sum mod 65536, SATURATE holds 0xFFFF (R233, R236). -/
def fpNext (mode : FpMode) (fp rate : BitVec 16) : BitVec 16 :=
  if fpOverruns fp rate then
    match mode with
    | .wrap => BitVec.ofNat 16 (fpSum fp rate - 0x10000)
    | .saturate => 0xFFFF
  else BitVec.ofNat 16 (fpSum fp rate)

/-- A sensor code raises a notification: RUN = 1 and the code changes (R160, R161). -/
def notifies (run : Bool) (old code : Byte) : Bool := run && decide (code ≠ old)

end Sys2Proof.Machine
end

