-- ==== Sys2Proof/Machine/Ops.lean ====
section
/-!
DEFINITION. The named operations the meanings share: completing an operation with its read-data output (R260, 45_host_interface.md),
recording an error (R300, 60_exceptions.md), reading and writing one host register (R261, R262), and driving the outputs from a
channel map (R215, R216, 43_compensator.md).

The block takes no exception and returns from none (R300, R303, R304). `recordError` stands where another machine would have
its exception entry: every error is recorded through it.
-/

namespace Sys2Proof.Machine

/-- How every operation ends. -/
abbrev Result := Host.Outcome State Fault Refusal

/-- The operation is done and its read-data output is none: every operation but RD (R53, R260). -/
def complete (s : State) : Result := .next { s with rdata := none }

/-- RD is done and its read-data output is the byte read (R53, R261). -/
def completeRead (b : Byte) (s : State) : Result := .next { s with rdata := some b }

/-! ### Errors -/

/-- Record an error where R300 says it is recorded. E4 COLD has no flag: IVALID = 0 shows it. -/
def recordError (e : ErrorCode) (s : State) : State :=
  match e with
  | .config => { s with cfgflt := true }
  | .sensor => { s with diag.sfcnt := satInc8 s.diag.sfcnt }
  | .starve => { s with diag.slost := true }
  | .cold => s
  | .illop => { s with diag.illop := true }
  | .lockwr => { s with diag.lockwr := true }
  | .rowr => { s with diag.rowr := true }
  | .drift => { s with diag.drift := true }

/-- A reserved word: ILLOP <- 1 and nothing else, RDATA none (R112). -/
def takeReserved (s : State) : Result := complete (recordError .illop s)

/-! ### The host registers -/

/-- The byte a read of a register returns (R261). A snap register returns the low byte of the live value, a shadow register its
shadow (R94). -/
def regValue (r : Reg) (s : State) : Byte :=
  match r with
  | .ctrl => ctrlByte s
  | .status => statusByte s
  | .err => errByte s
  | .seqlen => s.conf.seqlen
  | .posapp => posappByte s
  | .pstat => pstatByte s
  | .phofs => s.conf.phofs
  | .pwmmax => s.conf.pwmmax
  | .alignLo => lo9 s.conf.align
  | .alignHi => hi9 s.conf.align
  | .duty => s.interp.duty
  | .sfcnt => s.diag.sfcnt
  | .sensin => s.sensin
  | .outen => outenByte s
  | .rateLo => lo16 s.est.rate
  | .rateHi => s.shadow.rate
  | .fpLo => lo16 s.interp.fp
  | .fpHi => s.shadow.fp
  | .icLo => lo16 s.est.ic
  | .icHi => s.shadow.iv.extractLsb' 0 8
  | .ifLo => s.shadow.iv.extractLsb' 8 8
  | .ifHi => s.shadow.iv.extractLsb' 16 8
  | .ovfLo => lo16 s.interval.ovfcnt
  | .ovfHi => s.shadow.ovf
  | .phaLo => lo9 s.timers.pha
  | .phaHi => s.shadow.pha
  | .phbLo => lo9 s.timers.phb
  | .phbHi => s.shadow.phb
  | .ocr c => s.out.ocr[c]
  | .seq i => s.conf.seqAt i
  | .chmap i => s.conf.mapAt i

/-- The side effect of a read: a snap read loads the shadow of its group, and no other read has one (R94). -/
def snapshot (r : Reg) (s : State) : State :=
  match r with
  | .rateLo => { s with shadow.rate := hi16 s.est.rate }
  | .fpLo => { s with shadow.fp := hi16 s.interp.fp }
  | .icLo => { s with shadow.iv := ivHigh s.est }
  | .ovfLo => { s with shadow.ovf := hi16 s.interval.ovfcnt }
  | .phaLo => { s with shadow.pha := hi9 s.timers.pha }
  | .phbLo => { s with shadow.phb := hi9 s.timers.phb }
  | .ctrl | .status | .err | .seqlen | .posapp | .pstat | .phofs | .pwmmax | .alignLo | .alignHi => s
  | .duty | .sfcnt | .sensin | .outen | .rateHi | .fpHi | .icHi | .ifLo | .ifHi | .ovfHi | .phaHi | .phbHi => s
  | .ocr _ | .seq _ | .chmap _ => s

/-- The configuration after an accepted write (the case list of R262). A register that is not writable keeps it. -/
def Conf.store (r : Reg) (d : Byte) (c : Conf) : Conf :=
  match r with
  | .ctrl => c.setCtrl d
  | .seqlen => { c with seqlen := d }
  | .phofs => { c with phofs := d }
  | .pwmmax => { c with pwmmax := d }
  | .alignLo => c.setAlignLo d
  | .alignHi => c.setAlignHi d
  | .seq i => { c with seq := c.seq.set i.toNat d }
  | .chmap i => { c with chmap := c.chmap.set i.toNat d }
  | .status | .err | .posapp | .pstat | .duty | .sfcnt | .sensin | .outen => c
  | .rateLo | .rateHi | .fpLo | .fpHi | .icLo | .icHi | .ifLo | .ifHi | .ovfLo | .ovfHi => c
  | .phaLo | .phaHi | .phbLo | .phbHi | .ocr _ => c

/-- Write(a, d): a read-only register refuses with ROWR, a run-locked one with LOCKWR while RUN = 1, ROWR tested first (R262). -/
def writeReg (r : Reg) (d : Byte) (s : State) : State :=
  match regAccess r with
  | .ro => recordError .rowr s
  | .rwl => if s.run then recordError .lockwr s else { s with conf := s.conf.store r d }
  | .rw => { s with conf := s.conf.store r d }

/-! ### The outputs -/

/-- ChanVal(m): the compare value for a channel in mode m (R216). ON is 255 only once IVALID = 1 (R218). -/
def chanVal (m : ChanMode) (s : State) : Byte :=
  match m with
  | .off => 0
  | .pwm => s.interp.duty
  | .on => if s.est.ivalid then 255 else 0
  | .pwmInv => s.interp.duty

/-- The compare buffers a channel map gives: OCRBUF[c] of every channel (R215, R237). -/
def mapBuffers (map : Byte) (s : State) : Vector Byte 4 := Vector.ofFn fun c => chanVal (chanMode map c) s

/-- The enables a channel map gives: EN[c] is (m != 0) (R215). -/
def mapEnables (map : Byte) : Vector Bool 4 := Vector.ofFn fun c => decide (chanMode map c ≠ .off)

/-- The polarities a channel map gives: POL[c] is (m = 3) (R215). -/
def mapPolarities (map : Byte) : Vector Bool 4 := Vector.ofFn fun c => decide (chanMode map c = .pwmInv)

/-- Apply(s): drive the outputs from the channel map of a step (R215). OCR is left alone: OCRBUF reaches it at TOP (R136). -/
def applyMap (step : StepIx) (s : State) : State :=
  let map := s.conf.mapAt step
  { s with
    comp := { s.comp with appstep := step, appv := true }
    out := { s.out with en := mapEnables map, pol := mapPolarities map, ocrbuf := mapBuffers map s } }

/-- Every channel disabled, its polarity and both compare values 0: START and STOP (R264, R266). -/
def Outputs.allOff : Outputs where
  ocr := .replicate 4 0
  ocrbuf := .replicate 4 0
  en := .replicate 4 false
  pol := .replicate 4 false

/-! ### The sensor sequence -/

/-- The entries that take part: SEQ[0..N-1] (R38). -/
def Conf.entries (c : Conf) : List Byte := c.seq.toList.take c.seqlen.toNat

/-- SEQ[i] != SEQ[j] for all i < j < SEQLEN (R265). -/
def Conf.distinct (c : Conf) : Bool := decide c.entries.Nodup

/-- The j below N with SEQ[j] = code, if there is one; j is unique in a valid configuration (R163, R265, R270). -/
def Conf.findStep (c : Conf) (code : Byte) : Option StepIx :=
  (c.entries.findIdx? (· == code)).map (BitVec.ofNat 4)

end Sys2Proof.Machine
end

