-- ==== Sys2Proof/Machine/Estimator.lean ====
section
/-!
DEFINITION. The interval and speed estimator, a part of Accept (42_estimator.md).
-/

namespace Sys2Proof.Machine

/-- total = OVFCNT * 510 + PHA - LASTPH, in phase steps of Timer A (R190). It is never negative in a state the block can be in;
elsewhere natural subtraction stops at 0 (log 7). -/
def intervalTotal (s : State) : Nat := s.interval.ovfcnt.toNat * period + s.timers.pha.toNat - s.interval.lastph.toNat

/-- RateOf(total): floor(SPAN * 510 / total), at most 0xFFFF, and 0xFFFF for 0 (R192). -/
def rateOf (total : Nat) : BitVec 16 :=
  if total = 0 then 0xFFFF else BitVec.ofNat 16 (min 0xFFFF (span * period / total))

/-- The IntervalSample of an interval, with its rate, IVALID set (R191). -/
def sampleOf (total : Nat) : Estimator where
  ic := BitVec.ofNat 16 (total / period)
  ifine := BitVec.ofNat 9 (total % period)
  rate := rateOf total
  ivalid := true

/-- Accept's recording: a sample exactly when the last reference point was an accepted transition (R166, R191). -/
def recordSample (s : State) : State := if s.interval.refv then { s with est := sampleOf (intervalTotal s) } else s

/-- A new reference point here and now; `edge` is whether it is an accepted transition (R36, R165, R166). -/
def setReference (edge : Bool) (s : State) : State :=
  { s with interval := { ovfcnt := 0, lastph := s.timers.pha, refv := edge } }

end Sys2Proof.Machine
end

