-- ==== Sys2Proof/Machine/Compensator.lean ====
section
/-!
DEFINITION. The phase and delay compensator: Arm (R212) and the compensator tick (R214) of 43_compensator.md.
-/

namespace Sys2Proof.Machine

/-- PEND <- 0 and PCNT <- 0: any earlier schedule is cancelled, PTGT kept (R212, R217). -/
def cancelSchedule (s : State) : State := { s with comp := { s.comp with pend := false, pcnt := 0 } }

/-- Schedule the remap of a step, a number of ticks ahead (R212). -/
def schedule (target : StepIx) (ticks : BitVec 16) (s : State) : State :=
  { s with comp := { s.comp with pend := true, ptgt := target, pcnt := ticks } }

/-- The next step in the direction of the last accepted transition (R212, R213). -/
def nextStep (s : State) (p : StepIx) : StepIx :=
  match s.seqr.dir with
  | .forward => stepForward s.conf.seqlen p
  | .reverse => stepReverse s.conf.seqlen p

/-- Arm in DELAY mode: at once with no offset, else PHOFS ticks later (R211, R212). -/
def armDelay (p : StepIx) (s : State) : State :=
  if s.conf.phofs = 0 then applyMap p s else schedule p (s.conf.phofs.setWidth 16) s

/-- An interval is known and is longer than the offset, so the next edge can be predicted (R212, R213). -/
def predictable (s : State) : Bool := s.est.ivalid && decide (s.est.ic.toNat > s.conf.phofs.toNat)

/-- IC - PHOFS: the ticks from this edge to PHOFS ticks before the next one predicted (R212, R213). -/
def leadTicks (s : State) : BitVec 16 := BitVec.ofNat 16 (s.est.ic.toNat - s.conf.phofs.toNat)

/-- Arm in ADVANCE mode: apply at once, and schedule the next step's remap PHOFS ticks before its predicted edge, if there is
a prediction (R211, R212, R213). Apply writes nothing that the prediction reads. -/
def armAdvance (p : StepIx) (s : State) : State :=
  if predictable s then schedule (nextStep s p) (leadTicks s) (applyMap p s) else applyMap p s

/-- Arm(p) (R212). -/
def arm (p : StepIx) (s : State) : State :=
  match s.conf.phmode with
  | .delay => armDelay p (cancelSchedule s)
  | .advance => armAdvance p (cancelSchedule s)

/-- PCNT <- PCNT - 1 (R214). -/
def countDown (s : State) : State := { s with comp := { s.comp with pcnt := s.comp.pcnt - 1 } }

/-- PEND <- 0 and Apply(PTGT) (R214). -/
def fireSchedule (s : State) : State := applyMap s.comp.ptgt { s with comp := { s.comp with pend := false } }

/-- CompTick(): count down a schedule, and apply its step when the count reaches 0 (R214). -/
def compTick (s : State) : State :=
  if s.comp.pend then
    if (countDown s).comp.pcnt = 0 then fireSchedule (countDown s) else countDown s
  else s

end Sys2Proof.Machine
end

