-- ==== Sys2Proof/Machine/Interpolator.lean ====
section
/-!
DEFINITION. The envelope interpolator and the PWM duty controller: the tick service of 44_interpolator_pwm.md.
-/

namespace Sys2Proof.Machine

/-- ROM(i): the only read of ENV_ROM is indexed by FP[15:8] (R13, R231). -/
def envAt (cfg : Config) (i : Byte) : Byte := cfg.envRom[i.toNat]

/-- DutyOf(a, e) = (a * e + 127) div 255 (R234). -/
def dutyOf (a e : Byte) : Byte := BitVec.ofNat 8 ((a.toNat * e.toNat + 127) / 255)

/-- The duty of a tick, from the position FP holds before the tick's advance; 0 during cold start (R233, R235). -/
def tickDuty (s : State) : Byte :=
  if s.est.ivalid then dutyOf s.conf.pwmmax (envAt s.cfg (hi16 s.interp.fp)) else 0

/-- Set DUTY (R233). Cold start is error condition E4, which records nothing but the zero itself (R300). -/
def setDuty (s : State) : State :=
  let s' := if s.est.ivalid then s else recordError .cold s
  { s' with interp.duty := tickDuty s }

/-- Advance FP by RATE; an overrun sets OVR and FPMODE decides the value (R233, R236). -/
def advanceFp (s : State) : State :=
  { s with interp := { s.interp with
      fp := fpNext s.conf.fpmode s.interp.fp s.est.rate
      ovr := s.interp.ovr || fpOverruns s.interp.fp s.est.rate } }

/-- Rewrite the compare buffers of the applied map; no map applied, no write (R237). -/
def writeBuffers (s : State) : State :=
  if s.comp.appv then { s with out.ocrbuf := mapBuffers (s.conf.mapAt s.comp.appstep) s } else s

/-- TickService() (R233). -/
def tickService (s : State) : State := writeBuffers (advanceFp (setDuty (compTick s)))

/-- FP <- FP_START and OVR <- 0: the interpolator is resynchronized (R165, R166, R236). -/
def resyncFp (s : State) : State :=
  { s with interp := { s.interp with fp := s.cfg.fpStart, ovr := false } }

end Sys2Proof.Machine
end

