-- ==== Sys2Proof/Machine/Sequencer.lean ====
section
/-!
DEFINITION. The commutation sequencer: EVT_SENSOR and the sensor service of 41_sequencer.md.
-/

namespace Sys2Proof.Machine

/-- POS <- j and PV <- 1 (R165, R270). -/
def placeAt (j : StepIx) (s : State) : State := { s with seqr := { s.seqr with pos := j, pv := true } }

/-- POS <- p and DIR <- d (R166). -/
def moveTo (p : StepIx) (d : Direction) (s : State) : State := { s with seqr := { s.seqr with pos := p, dir := d } }

/-- Acquire(j): a position where none was known; no IntervalSample, DIR and RATE unchanged (R165). -/
def acquire (j : StepIx) (s : State) : State :=
  applyMap j (cancelSchedule (resyncFp (setReference false (placeAt j s))))

/-- Accept(p, d): an accepted transition to step p in direction d (R166). -/
def accept (p : StepIx) (d : Direction) (s : State) : State :=
  arm p (resyncFp (moveTo p d (setReference true (recordSample s))))

/-- The service with no position known: the first code that matches an entry acquires, any other is a sensor fault (R163). -/
def serviceUnplaced (s : State) : State :=
  match s.conf.findStep s.sensin with
  | some j => acquire j s
  | none => recordError .sensor s

/-- SEQ at the forward neighbour of the position (R163). -/
def forwardCode (s : State) : Byte := s.conf.seqAt (stepForward s.conf.seqlen s.seqr.pos)

/-- SEQ at the reverse neighbour of the position (R163). -/
def reverseCode (s : State) : Byte := s.conf.seqAt (stepReverse s.conf.seqlen s.seqr.pos)

/-- SEQ at the position (R163). -/
def currentCode (s : State) : Byte := s.conf.seqAt s.seqr.pos

/-- The service with a position known: forward neighbour, reverse neighbour, the current code, anything else (R163, R164). -/
def servicePlaced (s : State) : State :=
  if s.sensin = forwardCode s then accept (stepForward s.conf.seqlen s.seqr.pos) .forward s
  else if s.sensin = reverseCode s then accept (stepReverse s.conf.seqlen s.seqr.pos) .reverse s
  else if s.sensin = currentCode s then s
  else recordError .sensor s

/-- SensorService() (R163). -/
def sensorService (s : State) : State := if s.seqr.pv then servicePlaced s else serviceUnplaced s

/-- The latch: a change of the code while RUN = 1 sets SPEND, and is merged with SLOST if one is already latched
(R160, R161). -/
def latchSensor (code : Byte) (s : State) : State :=
  if notifies s.run s.sensin code then
    { (if s.spend then recordError .starve s else s) with spend := true, sensin := code }
  else { s with sensin := code }

/-- EVT_SENSOR code (R160). -/
def execEvtSensor (code : Byte) (s : State) : Result := complete (latchSensor code s)

end Sys2Proof.Machine
end

