-- ==== Sys2Proof/Machine/Synchronizer.lean ====
section
/-!
DEFINITION. The dual-timer synchronizer and the system clock EVT_SYSCLK (40_synchronizer.md).
-/

namespace Sys2Proof.Machine

/-- The divisor a table gives a frequency class, if it has one (R132). -/
def classDivisor (table : Vector (Option Nat) 8) (fclass : BitVec 3) : Option Nat := table[fclass.toNat]

/-- PRESC_A(FCLASS) (R132): the divisor P of both timers of a running block, since START checked that the two are equal
(R131, R265). -/
def divisorA (s : State) : Option Nat := classDivisor s.cfg.prescA s.conf.fclass

/-- Timer A advances on this clock (R131, R133). -/
def advancesA (p : Option Nat) (t : Timers) : Bool := pscWraps p t.psca

/-- Timer B advances on this clock: its prescaler runs only once SKEW has counted down (R131, R137). -/
def advancesB (p : Option Nat) (t : Timers) : Bool := decide (t.skew = 0) && pscWraps p t.pscb

/-- Prescalers, skew and phases after one system clock with divisor p (the first half of R131). -/
def Timers.clock (p : Option Nat) (t : Timers) : Timers where
  pha := if advancesA p t then nextPhase t.pha else t.pha
  phb := if advancesB p t then nextPhase t.phb else t.phb
  psca := pscNext p t.psca
  pscb := if t.skew = 0 then pscNext p t.pscb else t.pscb
  skew := t.skew - 1

/-- Timer A overflows on this clock (R131, R135). -/
def overflowsA (p : Option Nat) (t : Timers) : Bool := advancesA p t && isBottom (t.clock p).pha

/-- Timer B overflows on this clock (R131, R135). -/
def overflowsB (p : Option Nat) (t : Timers) : Bool := advancesB p t && isBottom (t.clock p).phb

/-- Timer A reaches TOP on this clock (R131, R135). -/
def topsA (p : Option Nat) (t : Timers) : Bool := advancesA p t && isTop (t.clock p).pha

/-- Timer B reaches TOP on this clock (R131, R135). -/
def topsB (p : Option Nat) (t : Timers) : Bool := advancesB p t && isTop (t.clock p).phb

/-- At TOP of a timer the compare values of its channels take their buffered values: 0 and 1 with Timer A, 2 and 3 with
Timer B (R131, R136). -/
def Outputs.load (topA topB : Bool) (o : Outputs) : Outputs :=
  { o with ocr := Vector.ofFn fun c : Chan => if (if c.val < 2 then topA else topB) then o.ocrbuf[c] else o.ocr[c] }

/-- OVFCNT <- sat_16(OVFCNT + 1) (R143). -/
def countOverflow (s : State) : State := { s with interval.ovfcnt := satInc16 s.interval.ovfcnt }

/-- This clock of the block makes a tick: Timer A overflows (R142). -/
def ticks (s : State) : Bool := overflowsA (divisorA s) s.timers

/-- Prescalers, timer advances and the OCR load (R131; R306, items 1 and 2). -/
def clockTimers (s : State) : State :=
  { s with
    timers := s.timers.clock (divisorA s)
    out := s.out.load (topsA (divisorA s) s.timers) (topsB (divisorA s) s.timers) }

/-- The alignment check of a clock in which Timer B overflowed (R138). -/
def checkAlignment (s : State) : State := if drifted s.timers.pha then recordError .drift s else s

/-- Clear the latch and service it, if a notification is pending (R131, R161). -/
def serviceSensor (s : State) : State := if s.spend then sensorService { s with spend := false } else s

/-- ... then the OVFCNT count (R306, item 3). -/
def clockCount (s : State) : State := if ticks s then countOverflow (clockTimers s) else clockTimers s

/-- ... then the alignment check (R306, item 4). -/
def clockCheck (s : State) : State :=
  if overflowsB (divisorA s) s.timers then checkAlignment (clockCount s) else clockCount s

/-- ... then the tick service (R306, item 5). -/
def clockTick (s : State) : State := if ticks s then tickService (clockCheck s) else clockCheck s

/-- One system clock of a running block: the sensor service comes last (R131; R306, item 6). -/
def clockRunning (s : State) : State := serviceSensor (clockTick s)

/-- EVT_SYSCLK (R131). With RUN = 0 nothing changes (R144). -/
def execEvtSysclk (s : State) : Result := complete (if s.run then clockRunning s else s)

end Sys2Proof.Machine
end

