-- ==== Sys2Proof/Machine/Commands.lean ====
section
/-!
DEFINITION. The host commands NOP, START, STOP and CLRDIAG and the reset event (45_host_interface.md).
-/

namespace Sys2Proof.Machine

/-- NOP (R263). -/
def execNop (s : State) : Result := complete s

/-- The frequency class has a divisor for both timers, and the two are equal (R132, R265). -/
def classValid (cfg : Config) (fclass : BitVec 3) : Bool :=
  (classDivisor cfg.prescA fclass).isSome
    && decide (classDivisor cfg.prescA fclass = classDivisor cfg.prescB fclass)

/-- CfgValid() of a configuration, for the build parameters (R265). PHOFS, PWMMAX, CHMAP and the modes are not checked. -/
def confValid (cfg : Config) (c : Conf) : Bool :=
  classValid cfg c.fclass && decide (3 ≤ c.seqlen.toNat) && decide (c.seqlen.toNat ≤ 16) && c.distinct
    && decide (c.align.toNat ≤ 509)

/-- CfgValid(): the check START makes (R265). -/
def cfgValid (s : State) : Bool := confValid s.cfg s.conf

/-- What a successful START writes before acquisition (R264, R137). SFCNT, DRIFT, the error flags, SENSIN, the shadows and the
configuration are left. -/
def startState (s : State) : State :=
  { s with
    run := true
    spend := false
    seqr := { pos := 0, pv := false, dir := .forward }
    timers := { pha := 0, phb := s.conf.align, psca := 0, pscb := 0, skew := s.cfg.startSkew }
    interval := { ovfcnt := 0, lastph := 0, refv := false }
    est := { ic := 0, ifine := 0, rate := 0, ivalid := false }
    interp := { fp := s.cfg.fpStart, ovr := false, duty := 0 }
    comp := { pend := false, ptgt := 0, pcnt := 0, appstep := 0, appv := false }
    out := Outputs.allOff }

/-- StartAcquire(): take the position from the sensor reading at START, if it matches an entry (R270). -/
def startAcquire (s : State) : State :=
  match s.conf.findStep s.sensin with
  | some j => applyMap j (placeAt j s)
  | none => s

/-- START: ignored while RUN = 1 or CFGFLT = 1; a configuration that fails the check is the fatal fault; else the block
starts (R264). -/
def startBlock (s : State) : State :=
  if s.run || s.cfgflt then s
  else if cfgValid s then startAcquire (startState s)
  else recordError .config s

/-- START (R264). -/
def execStart (s : State) : Result := complete (startBlock s)

/-- STOP: RUN <- 0, every output off, PEND, SPEND and DUTY cleared; the rest is kept for reading (R266). -/
def stopBlock (s : State) : State :=
  { s with run := false, spend := false, out := Outputs.allOff, comp.pend := false, interp.duty := 0 }

/-- STOP (R266). -/
def execStop (s : State) : Result := complete (stopBlock s)

/-- CLRDIAG: SFCNT, the four error flags and DRIFT (R267). CFGFLT and OVR are not cleared. -/
def clearDiag (s : State) : State :=
  { s with diag := { illop := false, lockwr := false, rowr := false, slost := false, drift := false, sfcnt := 0 } }

/-- CLRDIAG (R267). -/
def execClrdiag (s : State) : Result := complete (clearDiag s)

/-- EVT_RESET: every state element takes its reset value (R268, R330). The build parameters are no state, and the words still to
come are the environment's. -/
def execEvtReset (s : State) : Result := complete (State.atReset s.cfg s.port)

end Sys2Proof.Machine
end

