-- ==== Sys2Proof/Machine/Registers.lean ====
section
/-!
DEFINITION. The host's register operations WR and RD (R261, R262, 45_host_interface.md).
-/

namespace Sys2Proof.Machine

/-- WR addr, data (R262). -/
def execWr (addr : RegAddr) (data : Byte) (s : State) : Result := complete (writeReg (regAt addr) data s)

/-- RD addr (R261): the byte is the one of the instant the shadow is loaded (R94). -/
def execRd (addr : RegAddr) (s : State) : Result :=
  completeRead (regValue (regAt addr) s) (snapshot (regAt addr) s)

end Sys2Proof.Machine
end

