-- ==== Sys2Proof/Machine/Dispatch.lean ====
section
/-!
DEFINITION. The meaning of each operation of the opcode map (R118, R260).
-/

namespace Sys2Proof.Machine

def exec (i : Instr) (s : State) : Host.Outcome State Fault Refusal :=
  match i with
  | .wr addr data => Sys2Proof.Machine.execWr addr data s
  | .rd addr => Sys2Proof.Machine.execRd addr s
  | .nop => Sys2Proof.Machine.execNop s
  | .start => Sys2Proof.Machine.execStart s
  | .stop => Sys2Proof.Machine.execStop s
  | .clrdiag => Sys2Proof.Machine.execClrdiag s
  | .evtSysclk => Sys2Proof.Machine.execEvtSysclk s
  | .evtSensor code => Sys2Proof.Machine.execEvtSensor code s
  | .evtReset => Sys2Proof.Machine.execEvtReset s

end Sys2Proof.Machine
end

