-- ==== Sys2Proof/Machine/Port.lean ====
section
/-!
DEFINITION. The operation port: the block has no program counter and fetches nothing (R7, R32); operations come one at a time from the
port, in the order the environment gives them (log 1).
-/

namespace Sys2Proof.Machine

/-- Take the next operation word from the port, if one waits there. -/
def fetch (s : State) : Option (OpWord × State) :=
  match s.port with
  | [] => none
  | w :: rest => some (w, { s with port := rest })

/-- The environment offers a word as the next operation. -/
def offer (w : OpWord) (s : State) : State := { s with port := w :: s.port }

/-- No operation waits: the block waits for one, and nothing changes (R331; log 2). -/
def idle (s : State) : Result := .next s

end Sys2Proof.Machine
end

