-- ==== Sys2Proof/Machine/Step.lean ====
section
/-!
DEFINITION. One step: take the next operation word from the port, decode it and run it (R260). A reserved word has the effect of R112.
-/

namespace Sys2Proof.Machine

/-- One operation word, to its end (R95, R260). -/
def execWord (w : OpWord) (s : State) : Host.Outcome State Fault Refusal :=
  match decode w with
  | some i => exec i s
  | none => takeReserved s

/-- One step of the block. With no word waiting it is idle (log 2). -/
def step (s : State) : Host.Outcome State Fault Refusal :=
  match fetch s with
  | some (w, rest) => execWord w rest
  | none => idle s

/-- `s` with the operation word of `nbits` bits `w` as the next one on the port, so that the next step runs it: the environment
offers a word (log 1). -/
def State.withFetchWord (s : State) (nbits w : Nat) : State := offer (BitVec.ofNat 16 (w % 2 ^ nbits)) s

end Sys2Proof.Machine
end

