-- ==== Sys2Proof/Machine/Assembler.lean ====
section
/-!
DEFINITION. The assembler notation of R121 and the pseudo-instructions of R122 (30_encoding.md). "A pseudo-instruction is only a notation
for its expansion, and the expansion is what runs", so a line stands for a list of operations.
A line is given as its characters. What R121 leaves open (spaces, letter case, empty lines) is log 9.
-/

namespace Sys2Proof.Machine

/-! ### Expansion -/

/-- `WR a, d` for operands that fit. -/
def asmWrite (a d : Nat) : Instr := .wr (BitVec.ofNat 6 a) (BitVec.ofNat 8 d)

/-- `RD a` for an operand that fits. -/
def asmRead (a : Nat) : Instr := .rd (BitVec.ofNat 6 a)

/-- `WR base + i, d_i` for each operand in turn. -/
def asmWriteAll (base : Nat) : List Nat → List Instr
  | [] => []
  | d :: ds => asmWrite base d :: asmWriteAll (base + 1) ds

/-- The expansion column of R122; a plain line is its own operation (R121). -/
def asmExpand : AsmLine → List Instr
  | .wr a d => [asmWrite a d]
  | .rd a => [asmRead a]
  | .nop => [.nop]
  | .start => [.start]
  | .stop => [.stop]
  | .clrdiag => [.clrdiag]
  | .sysclk => [.evtSysclk]
  | .sensor c => [.evtSensor (BitVec.ofNat 8 c)]
  | .reset => [.evtReset]
  | .clk n => List.replicate n .evtSysclk
  | .wr16 lo v => [asmWrite lo (v % 256), asmWrite (lo + 1) (v / 256)]
  | .rd16 lo => [asmRead lo, asmRead (lo + 1)]
  | .rdiv => [.rd (regAddr .icLo), .rd (regAddr .icHi), .rd (regAddr .ifLo), .rd (regAddr .ifHi)]
  | .cfgseq cs => asmWrite 0x03 cs.length :: asmWriteAll 0x20 cs
  | .cfgmap ms => asmWriteAll 0x30 ms

/-- The operations of a line, or an assembly error: the assembler never cuts an operand to fit (R121). -/
def assemble (l : AsmLine) : Option (List Instr) :=
  if l.wellFormed then some (asmExpand l) else none

/-! ### Reading a line -/

/-- Drop the spaces around a text. -/
def trimSpaces (cs : List Char) : List Char :=
  ((cs.dropWhile fun c => c == ' ' || c == '\t').reverse.dropWhile fun c => c == ' ' || c == '\t').reverse

/-- The text before the comment sign (R121). -/
def dropComment (cs : List Char) : List Char := cs.takeWhile fun c => c != ';'

/-- The texts between commas (R121). -/
def splitCommas : List Char → List (List Char)
  | [] => [[]]
  | c :: cs =>
    match splitCommas cs with
    | [] => [[c]]
    | t :: ts => if c == ',' then [] :: t :: ts else (c :: t) :: ts

/-- The value of a digit in a base. -/
def digitValue (base : Nat) (c : Char) : Option Nat :=
  let v :=
    if '0' ≤ c ∧ c ≤ '9' then c.toNat - '0'.toNat
    else if 'a' ≤ c ∧ c ≤ 'f' then c.toNat - 'a'.toNat + 10
    else if 'A' ≤ c ∧ c ≤ 'F' then c.toNat - 'A'.toNat + 10
    else base
  if v < base then some v else none

/-- The value of a nonempty run of digits, `acc` the value of those already read. -/
def digitsFrom (base acc : Nat) : List Char → Option Nat
  | [] => some acc
  | c :: cs => (digitValue base c).bind fun v => digitsFrom base (acc * base + v) cs

/-- A nonempty run of digits. -/
def digits (base : Nat) (cs : List Char) : Option Nat := if cs.isEmpty then none else digitsFrom base 0 cs

/-- A number: decimal, `0x` hexadecimal or `0b` binary (R121). -/
def readNumber (cs : List Char) : Option Nat :=
  match cs with
  | '0' :: 'x' :: ds => digits 16 ds
  | '0' :: 'b' :: ds => digits 2 ds
  | ds => digits 10 ds

/-- The register names of R60 that carry no index, with their registers. -/
def regNames : List (String × Reg) :=
  [("CTRL", .ctrl), ("STATUS", .status), ("ERR", .err), ("SEQLEN", .seqlen), ("POSAPP", .posapp), ("PSTAT", .pstat),
   ("PHOFS", .phofs), ("PWMMAX", .pwmmax), ("ALIGN_LO", .alignLo), ("ALIGN_HI", .alignHi), ("DUTY", .duty),
   ("SFCNT", .sfcnt), ("SENSIN", .sensin), ("OUTEN", .outen)]
  ++ [("RATE_LO", .rateLo), ("RATE_HI", .rateHi), ("FP_LO", .fpLo), ("FP_HI", .fpHi), ("IC_LO", .icLo), ("IC_HI", .icHi),
   ("IF_LO", .ifLo), ("IF_HI", .ifHi), ("OVF_LO", .ovfLo), ("OVF_HI", .ovfHi), ("PHA_LO", .phaLo), ("PHA_HI", .phaHi),
   ("PHB_LO", .phbLo), ("PHB_HI", .phbHi)]

/-- The indexed groups of R60: name, first address, size. -/
def regGroups : List (String × Nat × Nat) := [("OCR", 0x1C, 4), ("SEQ", 0x20, 16), ("CHMAP", 0x30, 16)]

/-- The text after a leading text, if it leads. -/
def afterText : List Char → List Char → Option (List Char)
  | [], cs => some cs
  | p :: ps, c :: cs => if p == c then afterText ps cs else none
  | _ :: _, [] => none

/-- An index, plain (`SEQ3`, the names of R60) or in brackets (`SEQ[3]`, R121). -/
def readIndex (cs : List Char) : Option Nat :=
  match cs with
  | '[' :: rest =>
    match rest.reverse with
    | ']' :: r => readNumber (trimSpaces r.reverse)
    | _ => none
  | ds => digits 10 ds

/-- The address of an indexed register of a group. -/
def readGroup (g : String × Nat × Nat) (cs : List Char) : Option Nat :=
  (afterText g.1.toList cs).bind fun rest =>
    (readIndex rest).bind fun i => if i < g.2.2 then some (g.2.1 + i) else none

/-- A register address: a number or a name (R121). -/
def readAddr (cs : List Char) : Option Nat :=
  match readNumber cs with
  | some n => some n
  | none =>
    match regNames.find? fun p => p.1.toList == cs with
    | some p => some (regAddr p.2).toNat
    | none => regGroups.findSome? fun g => readGroup g cs

/-- The numbers of an operand list. -/
def readNumbers (ops : List (List Char)) : Option (List Nat) := ops.mapM readNumber

/-- The line a mnemonic and its operands stand for (R121, R122). -/
def readOp (mnemonic : List Char) (ops : List (List Char)) : Option AsmLine :=
  if mnemonic == "WR".toList then
    match ops with
    | [a, d] => (readAddr a).bind fun a => (readNumber d).map fun d => .wr a d
    | _ => none
  else if mnemonic == "RD".toList then
    match ops with
    | [a] => (readAddr a).map .rd
    | _ => none
  else if mnemonic == "SENSOR".toList then
    match ops with
    | [c] => (readNumber c).map .sensor
    | _ => none
  else if mnemonic == "CLK".toList then
    match ops with
    | [n] => (readNumber n).map .clk
    | _ => none
  else if mnemonic == "WR16".toList then
    match ops with
    | [lo, v] => (readAddr lo).bind fun lo => (readNumber v).map fun v => .wr16 lo v
    | _ => none
  else if mnemonic == "RD16".toList then
    match ops with
    | [lo] => (readAddr lo).map .rd16
    | _ => none
  else if mnemonic == "CFGSEQ".toList then (readNumbers ops).map .cfgseq
  else if mnemonic == "CFGMAP".toList then (readNumbers ops).map .cfgmap
  else if ops.isEmpty then
    if mnemonic == "NOP".toList then some .nop
    else if mnemonic == "START".toList then some .start
    else if mnemonic == "STOP".toList then some .stop
    else if mnemonic == "CLRDIAG".toList then some .clrdiag
    else if mnemonic == "SYSCLK".toList then some .sysclk
    else if mnemonic == "RESET".toList then some .reset
    else if mnemonic == "RDIV".toList then some .rdiv
    else none
  else none

/-- A line of text: mnemonic first, then operands separated by commas, `;` starting a comment (R121). -/
def readLine (cs : List Char) : Option AsmLine :=
  let text := trimSpaces (dropComment cs)
  let mnemonic := text.takeWhile fun c => c != ' ' && c != '\t'
  let rest := trimSpaces (text.drop mnemonic.length)
  readOp mnemonic (if rest.isEmpty then [] else (splitCommas rest).map trimSpaces)

/-- The operations of a line of text. A line with nothing but spaces and a comment stands for none (log 9). -/
def assembleLine (cs : List Char) : Option (List Instr) :=
  if (trimSpaces (dropComment cs)).isEmpty then some [] else (readLine cs).bind assemble

/-- The operation words of a program text, line by line (R121). -/
def assembleText (lines : List (List Char)) : Option (List OpWord) :=
  (lines.mapM assembleLine).map fun ops => ops.flatten.map encode

end Sys2Proof.Machine
end

