-- ==== Sys2Proof/Machine/Pins.lean ====
section
/-!
DEFINITION. The output comparator and the pins: a combinational function of the state, not state (R54, R140).
-/

namespace Sys2Proof.Machine

/-- TCNT(p): the 8-bit counter value of a timer phase, up to 255 and back down (R134). -/
def tcnt (p : Phase) : Nat := if p.toNat ≤ topPhase then p.toNat else period - p.toNat

/-- High(p, o) (R140). -/
def high (p : Phase) (o : Byte) : Bool := decide (p.toNat < o.toNat) || decide (p.toNat ≥ period - o.toNat)

/-- The phase of the timer that owns a channel (R9, R140). -/
def chanPhase (s : State) (c : Chan) : Phase := if c.val < 2 then s.timers.pha else s.timers.phb

/-- PIN[c] (R140). -/
def pin (s : State) (c : Chan) : PinLevel :=
  if s.out.en[c] then
    if xor s.out.pol[c] (high (chanPhase s c) s.out.ocr[c]) then .high else .low
  else .z

/-- The four pins (R54). -/
def pins (s : State) : Vector PinLevel 4 := Vector.ofFn (pin s)

end Sys2Proof.Machine
end

