-- ==== Sys2Proof/Machine/Run.lean ====
section
/-!
DEFINITION. A run: a finite sequence of operation words applied to a start state; its result is the state after the last word, the
sequence of RDATA values, one per RD, and the pins of the final state (R336, 70_reset_and_hazards.md; D47).
-/

namespace Sys2Proof.Machine

/-- The result of a run (R336). -/
structure RunResult where
  final : State
  reads : List Byte
  pins : Vector PinLevel 4
  deriving DecidableEq, Repr

/-- The environment delivers one word and the block takes it. -/
def deliver (w : OpWord) (s : State) : Result := step (offer w s)

/-- The words one after the other, with the bytes read on the way. None would be a stop, and there is none (R314). -/
def runWords : List OpWord → State → Option (State × List Byte)
  | [], s => some (s, [])
  | w :: ws, s =>
    match deliver w s with
    | .next t => (runWords ws t).map fun r => (r.1, t.rdata.toList ++ r.2)
    | .fault _ => none
    | .refused _ => none

/-- The run of a word sequence from a start state (R336). -/
def runOf (ws : List OpWord) (s : State) : Option RunResult :=
  (runWords ws s).map fun r => { final := r.1, reads := r.2, pins := pins r.1 }

/-- The state a run ends in. -/
def finalOf (ws : List OpWord) (s : State) : Option State := (runWords ws s).map Prod.fst

/-- `CLK n`: n system clocks (R122). -/
def clocks (n : Nat) : List OpWord := List.replicate n (encode .evtSysclk)

end Sys2Proof.Machine
end

