-- ==== Sys2Proof/Safety.lean ====
section
/-!
DEFINITION. What claims use beside the machine itself: the class of a state and of a run in the terms of R314 (60_exceptions.md), the premise
"ERR = 0 and SFCNT = 0" of the same rule, and the invariant of the block, collected from the rules' own statements about its
state. The invariant says only what the rules give of every state a run from reset can be in, whatever the host does.
-/

namespace Sys2Proof.Machine

/-! ### Classes of states and runs -/

/-- CFGFLT = 1 is the block's one fatal state (R314, E1 of R300). -/
def faultOf (s : State) : Option Fault := if s.cfgflt then some .config else none

/-- The fault of a run: "A model should treat a run that reaches CFGFLT = 1 as faulted" (R314). -/
def runFault : List OpWord → State → Option Fault
  | [], s => faultOf s
  | w :: ws, s =>
    match faultOf s with
    | some f => some f
    | none =>
      match deliver w s with
      | .next t => runFault ws t
      | .fault f => some f
      | .refused _ => none

/-- No error recorded: the premise "ERR = 0 and SFCNT = 0" (R314). -/
def Quiet (s : State) : Prop := errByte s = 0 ∧ s.diag.sfcnt = 0

/-! ### Words used in claims -/

/-- No output is driven and no compare value is left (R266, R330, R331). -/
def OutputsOff (s : State) : Prop := s.out = Outputs.allOff

/-- Every compare value, in use and waiting, is 0: the cold-start output (R218, R235). -/
def ZeroOutput (s : State) : Prop := s.interp.duty = 0 ∧ s.out.ocr = .replicate 4 0 ∧ s.out.ocrbuf = .replicate 4 0

/-- EN and POL are those of a step's channel map (R215, R218). -/
def FollowsMap (s : State) : Prop :=
  s.out.en = mapEnables (s.conf.mapAt s.comp.appstep) ∧ s.out.pol = mapPolarities (s.conf.mapAt s.comp.appstep)

/-- The bytes of one value read at one instant (R94): after the read of `lo`, and whatever operations follow it but another read of
`lo` or a reset, the reads of the shadow addresses `his` return the remaining bytes of the value `lo` was the first byte of. -/
def SnapshotHolds (lo : RegAddr) (his : List RegAddr) (bytes : State → List Byte) : Prop :=
  ∀ (s : State) (ws : List OpWord),
    (∀ w ∈ ws, decode w ≠ some (.rd lo) ∧ decode w ≠ some .evtReset) →
    ∃ t b mid bs, runWords (encode (.rd lo) :: (ws ++ his.map fun a => encode (.rd a))) s = some (t, b :: (mid ++ bs))
      ∧ b :: bs = bytes s

/-! ### The invariant -/

/-- What holds at reset and what every step keeps. -/
structure Inv (s : State) : Prop where
  /-- The machine is built with parameters it may be built with (R232, I8). -/
  params : s.cfg.wf = true
  /-- Timer phases and the two stored phase values lie in 0..509 (R35, R36, R41). -/
  phases : s.timers.pha.toNat < period ∧ s.timers.phb.toNat < period ∧ s.interval.lastph.toNat < period
    ∧ s.est.ifine.toNat < period
  /-- With no overflow since the reference point, Timer A is not before it, so the interval is never negative (R190). -/
  reference : s.interval.ovfcnt = 0 → s.interval.lastph.toNat ≤ s.timers.pha.toNat
  /-- A running block passed its check, and the configuration the check reads is locked while it runs (R264, R98). -/
  valid : s.run = true → cfgValid s = true ∧ s.cfgflt = false
  /-- The prescaler counters of a running block lie below the divisor (R41, R133). -/
  prescalers : s.run = true → ∀ p, divisorA s = some p → s.timers.psca.toNat < p ∧ s.timers.pscb.toNat < p
  /-- SPEND = 1 implies RUN = 1 (R162). -/
  latch : s.spend = true → s.run = true
  /-- A scheduled remap is one of a running block, counts at least 1 and names an index below SEQLEN (R212, R215, R266). -/
  scheduled : s.comp.pend = true → s.run = true ∧ s.comp.pcnt ≠ 0 ∧ s.comp.ptgt.toNat < s.conf.seqlen.toNat
  /-- While running, a valid position lies below SEQLEN (R37, log 8), and so does the applied step (R44, R215). -/
  position : s.run = true → (s.seqr.pv = true → s.seqr.pos.toNat < s.conf.seqlen.toNat)
    ∧ (s.comp.appv = true → s.comp.appstep.toNat < s.conf.seqlen.toNat)
  /-- While IVALID = 0 the rate is 0 (R34); once a sample is recorded it is at least 1 (R192). -/
  rate : s.est.ivalid = true ↔ s.est.rate ≠ 0
  /-- While IVALID = 0 the output is zero (R218, R235). -/
  cold : s.est.ivalid = false → ZeroOutput s
  /-- A stopped block drives no output, and DUTY is 0 (R264, R266, R331). -/
  stopped : s.run = false → OutputsOff s ∧ s.interp.duty = 0
  /-- While no map has been applied every output is disabled (R44, R218). -/
  unapplied : s.comp.appv = false → OutputsOff s
  /-- While running, the enables and polarities are those of the applied step's map (R215, R218). -/
  applied : s.run = true → s.comp.appv = true → FollowsMap s

end Sys2Proof.Machine
end

