-- ==== Sys2Proof/Certificates/Slice0/Obligations.lean ====
section
/-!
DEFINITION. The statements for the provers, from the spec's numbered rules. An equation `exec i s = .next { s with ... }` says the
result and the frame at once: every field not named is as before.
The divisor P of a running block is written `divisorA s = some P`, Timer A's table at FCLASS, which a valid configuration has equal
to Timer B's (R265).
-/

open Sys2Proof Sys2Proof.Machine

/-! ### Encoding -/

/-- Vectors V-DEC-2 to V-DEC-14 (95_test_vectors.md): a word of every operation, and words reserved for each reason. -/
def Obligations.SpelledWordsDecode : Prop :=
  decode 0x3FFF = some (.wr 0x3F 0xFF) ∧ decode 0x4100 = some (.rd 0x01) ∧ decode 0x4101 = none
  ∧ decode 0x8000 = some .nop ∧ decode 0x8400 = some .start ∧ decode 0x8800 = some .stop ∧ decode 0x8C00 = some .clrdiag
  ∧ decode 0x8401 = none ∧ decode 0x9000 = none
  ∧ decode 0xC000 = some .evtSysclk ∧ decode 0xC001 = none ∧ decode 0xC4A5 = some (.evtSensor 0xA5) ∧ decode 0xC500 = none
  ∧ decode 0xC800 = some .evtReset ∧ decode 0xCC00 = none ∧ decode 0xFFFF = none

/-- Decoding gives back every operation from its word, every operand at every value (R113 to R118). -/
def Obligations.DecodeGivesBackTheEncodedOperation : Prop :=
  ∀ i : Instr, i.wellFormed = true → decode (encode i) = some i

/-- A word has one meaning: the only word that decodes to an operation is its encoding (R111, R118). -/
def Obligations.OnlyTheEncodingDecodes : Prop :=
  ∀ (w : OpWord) (i : Instr), decode w = some i → encode i = w

/-- R111 in arithmetic on the word's number: which words decode, and to what. -/
def Obligations.DecodingIsTheFunctionOfTheWordsNumber : Prop :=
  ∀ w : OpWord, decode w =
    if w.toNat < 0x4000 then some (.wr (.ofNat 6 (w.toNat / 256)) (.ofNat 8 (w.toNat % 256)))
    else if w.toNat < 0x8000 then
      (if w.toNat % 256 = 0 then some (.rd (.ofNat 6 (w.toNat / 256 - 64))) else none)
    else if w.toNat = 0x8000 then some .nop
    else if w.toNat = 0x8400 then some .start
    else if w.toNat = 0x8800 then some .stop
    else if w.toNat = 0x8C00 then some .clrdiag
    else if w.toNat = 0xC000 then some .evtSysclk
    else if 0xC400 ≤ w.toNat ∧ w.toNat < 0xC500 then some (.evtSensor (.ofNat 8 (w.toNat % 256)))
    else if w.toNat = 0xC800 then some .evtReset
    else none

/-- R118: a word is the operation of the row it matches, no word matches two rows, and a word that matches none is reserved. -/
def Obligations.OpcodeMapDecidesEveryWord : Prop :=
  ∀ w : OpWord,
    (∀ i, decode w = some i → opRow i ∈ opcodeMap ∧ (opRow i).matchesWord w = true)
    ∧ (∀ r ∈ opcodeMap, ∀ q ∈ opcodeMap, r.matchesWord w = true → q.matchesWord w = true → r = q)
    ∧ (decode w = none ↔ ∀ r ∈ opcodeMap, r.matchesWord w = false)

/-! ### Steps -/

/-- A step takes the oldest word of the port and runs the operation it decodes to, or gives a reserved word its effect; a word
offered by `withFetchWord` is the one the next step runs (R260, R112). The port is the model's field (log 1). -/
def Obligations.StepRunsTheDecodedWord : Prop :=
  ∀ (s : State) (w : OpWord) (rest : List OpWord), s.port = w :: rest →
    (∀ i, decode w = some i → step s = exec i { s with port := rest })
    ∧ (decode w = none → step s = .next { s with port := rest, rdata := none, diag.illop := true })
    ∧ step ({ s with port := rest }.withFetchWord 16 w.toNat) = step s

/-- The model's choice (log 2): with no word on the port a step changes nothing. -/
def Obligations.IdleStepChangesNothing : Prop :=
  ∀ s : State, s.port = [] → step s = .next s

/-- "Every operation is enabled in every state, and every one terminates" (R314): no operation and no step faults or is refused, and
every run has a result. -/
def Obligations.EveryOperationCompletes : Prop :=
  (∀ (i : Instr) (s : State), ∃ t, exec i s = .next t)
  ∧ (∀ s : State, ∃ t, step s = .next t)
  ∧ (∀ (ws : List OpWord) (s : State), ∃ r, runOf ws s = some r)

/-- R112: a reserved word sets ILLOP and changes nothing else, whatever the state. -/
def Obligations.ReservedWordSetsIllopAlone : Prop :=
  ∀ (w : OpWord) (s : State), decode w = none → deliver w s = .next { s with rdata := none, diag.illop := true }

/-- R53: each RD sets RDATA to the byte read, and every other operation leaves it none. -/
def Obligations.ReadDataIsSetByReadsAlone : Prop :=
  ∀ (w : OpWord) (s t : State), deliver w s = .next t →
    (∀ a, decode w = some (.rd a) → t.rdata = some (regValue (regAt a) s))
    ∧ ((∀ a, decode w ≠ some (.rd a)) → t.rdata = none)

/-! ### Register access -/

/-- Every address names one register and every register has one address (R60, R97). -/
def Obligations.RegisterMapIsOneToOne : Prop :=
  (∀ a : RegAddr, regAddr (regAt a) = a) ∧ (∀ r : Reg, regAt (regAddr r) = r)

/-- R261, with its words: what RD of each address returns, the shadow a snap read loads, and that a read changes nothing else. -/
def Obligations.ReadReturnsTheNamedByte : Prop :=
  (∀ (a : RegAddr) (b : Byte),
    decode (.ofNat 16 (0x4000 + a.toNat * 256 + b.toNat)) = if b = 0 then some (.rd a) else none)
  ∧ ∀ s : State,
    exec (.rd 0x00) s = .next { s with rdata := some (0b000#3 ++ BitVec.ofBool (decide (s.conf.fpmode = .saturate))
        ++ BitVec.ofBool (decide (s.conf.phmode = .advance)) ++ s.conf.fclass) }
    ∧ exec (.rd 0x01) s = .next { s with rdata := some (BitVec.ofBool s.comp.pend ++ BitVec.ofBool s.diag.drift
        ++ BitVec.ofBool s.interp.ovr ++ BitVec.ofBool (decide (s.seqr.dir = .reverse)) ++ BitVec.ofBool s.est.ivalid
        ++ BitVec.ofBool s.seqr.pv ++ BitVec.ofBool s.cfgflt ++ BitVec.ofBool s.run) }
    ∧ exec (.rd 0x02) s = .next { s with rdata := some (0b0000#4 ++ BitVec.ofBool s.diag.slost
        ++ BitVec.ofBool s.diag.rowr ++ BitVec.ofBool s.diag.lockwr ++ BitVec.ofBool s.diag.illop) }
    ∧ exec (.rd 0x03) s = .next { s with rdata := some s.conf.seqlen }
    ∧ exec (.rd 0x04) s = .next { s with rdata := some (s.comp.appstep ++ s.seqr.pos) }
    ∧ exec (.rd 0x05) s = .next { s with rdata := some (0b0#1 ++ BitVec.ofBool s.spend
        ++ BitVec.ofBool s.interval.refv ++ BitVec.ofBool s.comp.appv ++ s.comp.ptgt) }
    ∧ exec (.rd 0x06) s = .next { s with rdata := some s.conf.phofs }
    ∧ exec (.rd 0x07) s = .next { s with rdata := some s.conf.pwmmax }
    ∧ exec (.rd 0x08) s = .next { s with rdata := some (.ofNat 8 (s.conf.align.toNat % 256)) }
    ∧ exec (.rd 0x09) s = .next { s with rdata := some (.ofNat 8 (s.conf.align.toNat / 256)) }
    ∧ exec (.rd 0x0A) s = .next { s with rdata := some s.interp.duty }
    ∧ exec (.rd 0x0B) s = .next { s with rdata := some s.diag.sfcnt }
    ∧ exec (.rd 0x0C) s = .next { s with rdata := some s.sensin }
    ∧ exec (.rd 0x0D) s = .next { s with rdata := some (BitVec.ofBool s.out.pol[3] ++ BitVec.ofBool s.out.pol[2]
        ++ BitVec.ofBool s.out.pol[1] ++ BitVec.ofBool s.out.pol[0] ++ BitVec.ofBool s.out.en[3]
        ++ BitVec.ofBool s.out.en[2] ++ BitVec.ofBool s.out.en[1] ++ BitVec.ofBool s.out.en[0]) }
    ∧ exec (.rd 0x0E) s = .next { s with rdata := some (.ofNat 8 (s.est.rate.toNat % 256))
                                         shadow.rate := .ofNat 8 (s.est.rate.toNat / 256) }
    ∧ exec (.rd 0x0F) s = .next { s with rdata := some s.shadow.rate }
    ∧ exec (.rd 0x10) s = .next { s with rdata := some (.ofNat 8 (s.interp.fp.toNat % 256))
                                         shadow.fp := .ofNat 8 (s.interp.fp.toNat / 256) }
    ∧ exec (.rd 0x11) s = .next { s with rdata := some s.shadow.fp }
    ∧ exec (.rd 0x12) s = .next { s with rdata := some (.ofNat 8 (s.est.ic.toNat % 256))
                                         shadow.iv := .ofNat 24 (s.est.ifine.toNat * 256 + s.est.ic.toNat / 256) }
    ∧ exec (.rd 0x13) s = .next { s with rdata := some (.ofNat 8 (s.shadow.iv.toNat % 256)) }
    ∧ exec (.rd 0x14) s = .next { s with rdata := some (.ofNat 8 (s.shadow.iv.toNat / 256 % 256)) }
    ∧ exec (.rd 0x15) s = .next { s with rdata := some (.ofNat 8 (s.shadow.iv.toNat / 65536)) }
    ∧ exec (.rd 0x16) s = .next { s with rdata := some (.ofNat 8 (s.interval.ovfcnt.toNat % 256))
                                         shadow.ovf := .ofNat 8 (s.interval.ovfcnt.toNat / 256) }
    ∧ exec (.rd 0x17) s = .next { s with rdata := some s.shadow.ovf }
    ∧ exec (.rd 0x18) s = .next { s with rdata := some (.ofNat 8 (s.timers.pha.toNat % 256))
                                         shadow.pha := .ofNat 8 (s.timers.pha.toNat / 256) }
    ∧ exec (.rd 0x19) s = .next { s with rdata := some s.shadow.pha }
    ∧ exec (.rd 0x1A) s = .next { s with rdata := some (.ofNat 8 (s.timers.phb.toNat % 256))
                                         shadow.phb := .ofNat 8 (s.timers.phb.toNat / 256) }
    ∧ exec (.rd 0x1B) s = .next { s with rdata := some s.shadow.phb }
    ∧ (∀ c : Fin 4, exec (.rd (.ofNat 6 (0x1C + c.val))) s = .next { s with rdata := some s.out.ocr[c] })
    ∧ (∀ i : Fin 16, exec (.rd (.ofNat 6 (0x20 + i.val))) s = .next { s with rdata := some s.conf.seq[i] })
    ∧ (∀ i : Fin 16, exec (.rd (.ofNat 6 (0x30 + i.val))) s = .next { s with rdata := some s.conf.chmap[i] })

/-- R94: the snap byte first and the shadow bytes after give one value of one instant, whatever operations come between, a new snap
or a reset apart. For all six groups. -/
def Obligations.SnapshotReadsAreOfOneInstant : Prop :=
  SnapshotHolds 0x0E [0x0F] (fun s => [.ofNat 8 s.est.rate.toNat, .ofNat 8 (s.est.rate.toNat / 256)])
  ∧ SnapshotHolds 0x10 [0x11] (fun s => [.ofNat 8 s.interp.fp.toNat, .ofNat 8 (s.interp.fp.toNat / 256)])
  ∧ SnapshotHolds 0x12 [0x13, 0x14, 0x15] (fun s => [.ofNat 8 s.est.ic.toNat, .ofNat 8 (s.est.ic.toNat / 256),
      .ofNat 8 s.est.ifine.toNat, .ofNat 8 (s.est.ifine.toNat / 256)])
  ∧ SnapshotHolds 0x16 [0x17] (fun s => [.ofNat 8 s.interval.ovfcnt.toNat, .ofNat 8 (s.interval.ovfcnt.toNat / 256)])
  ∧ SnapshotHolds 0x18 [0x19] (fun s => [.ofNat 8 s.timers.pha.toNat, .ofNat 8 (s.timers.pha.toNat / 256)])
  ∧ SnapshotHolds 0x1A [0x1B] (fun s => [.ofNat 8 s.timers.phb.toNat, .ofNat 8 (s.timers.phb.toNat / 256)])

/-- R262, with its words: a write to a read-only register sets ROWR, one to a run-locked register while RUN = 1 sets LOCKWR, and neither changes
anything else; an accepted write stores its byte as the case list says. -/
def Obligations.WriteIsStoredOrRefused : Prop :=
  ∀ (s : State) (d : Byte),
    (∀ a : RegAddr, decode (.ofNat 16 (a.toNat * 256 + d.toNat)) = some (.wr a d))
    ∧ (∀ a : RegAddr, a ∉ [0x00#6, 0x03#6, 0x06#6, 0x07#6, 0x08#6, 0x09#6] → a.toNat < 0x20 →
      exec (.wr a d) s = .next { s with rdata := none, diag.rowr := true })
    ∧ (∀ a : RegAddr, a ∈ [0x00#6, 0x03#6, 0x06#6, 0x08#6, 0x09#6] ∨ 0x20 ≤ a.toNat → s.run = true →
      exec (.wr a d) s = .next { s with rdata := none, diag.lockwr := true })
    ∧ exec (.wr 0x07 d) s = .next { s with rdata := none, conf.pwmmax := d }
    ∧ (s.run = false →
      exec (.wr 0x00 d) s = .next { s with
          rdata := none
          conf := { s.conf with fclass := .ofNat 3 (d.toNat % 8)
                                phmode := (if d.toNat / 8 % 2 = 1 then .advance else .delay)
                                fpmode := (if d.toNat / 16 % 2 = 1 then .saturate else .wrap) } }
      ∧ exec (.wr 0x03 d) s = .next { s with rdata := none, conf.seqlen := d }
      ∧ exec (.wr 0x06 d) s = .next { s with rdata := none, conf.phofs := d }
      ∧ exec (.wr 0x08 d) s = .next { s with
          rdata := none, conf.align := .ofNat 9 (s.conf.align.toNat / 256 * 256 + d.toNat) }
      ∧ exec (.wr 0x09 d) s = .next { s with
          rdata := none, conf.align := .ofNat 9 (d.toNat % 2 * 256 + s.conf.align.toNat % 256) }
      ∧ (∀ i : Fin 16, exec (.wr (.ofNat 6 (0x20 + i.val)) d) s
          = .next { s with rdata := none, conf.seq := s.conf.seq.set i.val d })
      ∧ (∀ i : Fin 16, exec (.wr (.ofNat 6 (0x30 + i.val)) d) s
          = .next { s with rdata := none, conf.chmap := s.conf.chmap.set i.val d }))

/-- Read after write (R61, R69, R99): of a stopped block, or of PWMMAX at any time, an accepted write is what the next read of the
address returns (less the reserved bits of CTRL and ALIGN_HI), and every other address reads as before. -/
def Obligations.WrittenByteReadsBack : Prop :=
  ∀ (s : State) (a : RegAddr) (d : Byte),
    regAccess (regAt a) = .rw ∨ (regAccess (regAt a) = .rwl ∧ s.run = false) →
    ∃ t, exec (.wr a d) s = .next t
      ∧ regValue (regAt a) t = (if a = 0x00 then d &&& 0x1F else if a = 0x09 then d &&& 0x01 else d)
      ∧ ∀ b : RegAddr, b ≠ a → regValue (regAt b) t = regValue (regAt b) s

/-- A refused write leaves every address but ERR reading as before (R262, R63). -/
def Obligations.RefusedWriteIsSeenInErrAlone : Prop :=
  ∀ (s : State) (a : RegAddr) (d : Byte),
    regAccess (regAt a) = .ro ∨ (regAccess (regAt a) = .rwl ∧ s.run = true) →
    ∃ t, exec (.wr a d) s = .next t
      ∧ (∀ b : RegAddr, b ≠ 0x02 → regValue (regAt b) t = regValue (regAt b) s)
      ∧ regValue .err t = regValue .err s ||| (if regAccess (regAt a) = .ro then 0x04 else 0x02)

/-- The configuration changes only by WR and reset, of a running block only PWMMAX changes, and no operation writes ENV_ROM or
another build parameter (R55, R98, R102, R342). -/
def Obligations.ConfigurationIsLockedWhileRunning : Prop :=
  ∀ (w : OpWord) (s t : State), deliver w s = .next t →
    t.cfg = s.cfg
    ∧ ((∀ a d, decode w ≠ some (.wr a d)) → decode w ≠ some .evtReset → t.conf = s.conf)
    ∧ (s.run = true → decode w ≠ some .evtReset → t.conf = { s.conf with pwmmax := t.conf.pwmmax })

/-! ### Commands and reset -/

/-- R263, with its word. -/
def Obligations.NopChangesNothing : Prop :=
  decode 0x8000 = some .nop ∧ ∀ s : State, exec .nop s = .next { s with rdata := none }

/-- R267, with its word: the four error flags, DRIFT and SFCNT, and nothing else. -/
def Obligations.ClrdiagClearsTheDiagnosticsAlone : Prop :=
  decode 0x8C00 = some .clrdiag ∧ ∀ s : State, exec .clrdiag s = .next { s with
    rdata := none
    diag := { illop := false, lockwr := false, rowr := false, slost := false, drift := false, sfcnt := 0 } }

/-- R266, with its word: RUN, PEND, SPEND and DUTY are cleared, every channel is off and every pin is Z at once; all else is kept. -/
def Obligations.StopDisablesEveryOutput : Prop :=
  decode 0x8800 = some .stop ∧ ∀ s : State, ∃ t, exec .stop s = .next t
    ∧ t = { s with
        rdata := none
        run := false
        spend := false
        comp.pend := false
        interp.duty := 0
        out := { ocr := .replicate 4 0, ocrbuf := .replicate 4 0, en := .replicate 4 false, pol := .replicate 4 false } }
    ∧ (∀ c : Chan, pin t c = .z)

/-- R268, with its word: every state element takes its reset value, all 0 (R58, R330); the build parameters and the words still to come are no
state. Every address then reads 0 and every pin is Z. It is the state after power-on. -/
def Obligations.ResetClearsEveryElement : Prop :=
  decode 0xC800 = some .evtReset ∧ ∀ s : State, ∃ t, exec .evtReset s = .next t
    ∧ t.cfg = s.cfg ∧ t.port = s.port ∧ t.rdata = none
    ∧ t.conf = { fclass := 0, phmode := .delay, fpmode := .wrap, seqlen := 0, seq := .replicate 16 0,
                 chmap := .replicate 16 0, phofs := 0, pwmmax := 0, align := 0 }
    ∧ t.run = false ∧ t.cfgflt = false ∧ t.sensin = 0 ∧ t.spend = false
    ∧ t.seqr = { pos := 0, pv := false, dir := .forward }
    ∧ t.timers = { pha := 0, phb := 0, psca := 0, pscb := 0, skew := 0 }
    ∧ t.interval = { ovfcnt := 0, lastph := 0, refv := false }
    ∧ t.est = { ic := 0, ifine := 0, rate := 0, ivalid := false }
    ∧ t.interp = { fp := 0, ovr := false, duty := 0 }
    ∧ t.comp = { pend := false, ptgt := 0, pcnt := 0, appstep := 0, appv := false }
    ∧ t.out = { ocr := .replicate 4 0, ocrbuf := .replicate 4 0, en := .replicate 4 false, pol := .replicate 4 false }
    ∧ t.diag = { illop := false, lockwr := false, rowr := false, slost := false, drift := false, sfcnt := 0 }
    ∧ t.shadow = { rate := 0, fp := 0, iv := 0, ovf := 0, pha := 0, phb := 0 }
    ∧ (∀ a : RegAddr, regValue (regAt a) t = 0)
    ∧ (∀ c : Chan, pin t c = .z)
    ∧ (s.cfg = Config.default → s.port = [] → t = State.reset)

/-- R265: what CfgValid() checks, entry by entry; START sets CFGFLT when any of the four fails, and runs when none does. -/
def Obligations.ConfigurationCheckIsTheFourConditions : Prop :=
  ∀ s : State,
    (cfgValid s = true ↔
      (∃ p, s.cfg.prescA[s.conf.fclass.toNat] = some p ∧ s.cfg.prescB[s.conf.fclass.toNat] = some p)
      ∧ 3 ≤ s.conf.seqlen.toNat ∧ s.conf.seqlen.toNat ≤ 16
      ∧ (∀ i j : Fin 16, i < j → j.val < s.conf.seqlen.toNat → s.conf.seq[i] ≠ s.conf.seq[j])
      ∧ s.conf.align.toNat ≤ 509)
    ∧ (s.run = false → s.cfgflt = false →
      ∃ t, exec .start s = .next t ∧ t.run = cfgValid s ∧ t.cfgflt = !cfgValid s)

/-- START is ignored while RUN = 1 or CFGFLT = 1, and a configuration that fails the check is the configuration fault, with nothing
else changed (R264, E1 of R300). -/
def Obligations.StartIsIgnoredOrFaults : Prop :=
  ∀ s : State,
    (s.run = true ∨ s.cfgflt = true → exec .start s = .next { s with rdata := none })
    ∧ (s.run = false → s.cfgflt = false → cfgValid s = false →
        exec .start s = .next { s with rdata := none, cfgflt := true })

/-- What a successful START leaves (R264, R137), the acquisition of R270 apart. -/
def Obligations.StartInitialisesTheRunningState : Prop :=
  ∀ s : State, s.run = false → s.cfgflt = false → cfgValid s = true →
    ∃ t, exec .start s = .next t
      ∧ t.run = true ∧ t.cfgflt = false ∧ t.spend = false ∧ t.seqr.dir = .forward
      ∧ t.timers = { pha := 0, phb := s.conf.align, psca := 0, pscb := 0, skew := s.cfg.startSkew }
      ∧ t.interval = { ovfcnt := 0, lastph := 0, refv := false }
      ∧ t.est = { ic := 0, ifine := 0, rate := 0, ivalid := false }
      ∧ t.interp = { fp := s.cfg.fpStart, ovr := false, duty := 0 }
      ∧ t.comp.pend = false ∧ t.comp.ptgt = 0 ∧ t.comp.pcnt = 0
      ∧ t.out.ocr = .replicate 4 0 ∧ t.out.ocrbuf = .replicate 4 0
      ∧ t.cfg = s.cfg ∧ t.port = s.port ∧ t.rdata = none ∧ t.conf = s.conf ∧ t.sensin = s.sensin ∧ t.diag = s.diag
      ∧ t.shadow = s.shadow

/-- R270: a sensor code that matches an entry gives the position and applies that step's map; one that matches none leaves no
position and every output disabled. -/
def Obligations.StartAcquiresThePosition : Prop :=
  ∀ s : State, s.run = false → s.cfgflt = false → cfgValid s = true →
    ∃ t, exec .start s = .next t
      ∧ (∀ j : Fin 16, j.val < s.conf.seqlen.toNat → s.conf.seq[j] = s.sensin →
          t.seqr.pv = true ∧ t.seqr.pos.toNat = j.val ∧ t.comp.appv = true ∧ t.comp.appstep.toNat = j.val
          ∧ (∀ c : Chan, t.out.en[c] = decide (chanMode s.conf.chmap[j] c ≠ .off)
              ∧ t.out.pol[c] = decide (chanMode s.conf.chmap[j] c = .pwmInv)))
      ∧ ((∀ j : Fin 16, j.val < s.conf.seqlen.toNat → s.conf.seq[j] ≠ s.sensin) →
          t.seqr.pv = false ∧ t.seqr.pos = 0 ∧ t.comp.appv = false ∧ t.comp.appstep = 0
          ∧ t.out.en = .replicate 4 false ∧ t.out.pol = .replicate 4 false)

/-- R332: a START straight after reset is a configuration fault, for every choice of build parameters. -/
def Obligations.StartStraightAfterResetFaults : Prop :=
  ∀ (cfg : Config) (port : List OpWord), ∃ t, exec .start (State.atReset cfg port) = .next t
    ∧ t.cfgflt = true ∧ t.run = false ∧ regValue .status t = 0x02 ∧ faultOf t = some .config

/-- R301, R314: CFGFLT stays until a reset, the block does not run meanwhile, and no output is driven. -/
def Obligations.ConfigurationFaultIsFatalUntilReset : Prop :=
  ∀ (w : OpWord) (s t : State), Inv s → s.cfgflt = true → decode w ≠ some .evtReset → deliver w s = .next t →
    t.cfgflt = true ∧ t.run = false ∧ ∀ c : Chan, pin t c = .z

/-- R335: the state after a START depends on nothing the earlier run left but SFCNT, DRIFT, the error bits, SENSIN and the
shadows. -/
def Obligations.RestartForgetsTheEarlierRun : Prop :=
  ∀ s u t v : State, s.run = false → u.run = false → s.cfgflt = false → u.cfgflt = false →
    cfgValid s = true → s.cfg = u.cfg → s.conf = u.conf → s.sensin = u.sensin →
    exec .start s = .next t → exec .start u = .next v →
    t = { v with port := s.port, diag := s.diag, shadow := s.shadow }

/-- R96: NOP, CLRDIAG, STOP, a repeated WR of the same byte and a repeated RD give the same result when repeated. -/
def Obligations.RepeatedHostOperationsAreIdempotent : Prop :=
  ∀ (i : Instr) (s t : State),
    i = .nop ∨ i = .clrdiag ∨ i = .stop ∨ (∃ a d, i = .wr a d) ∨ (∃ a, i = .rd a) →
    exec i s = .next t → exec i t = .next t

/-! ### The sensor event -/

/-- R160, with its word: EVT_SENSOR with RUN = 0 or an unchanged code only sets SENSIN; a change while RUN = 1 latches a notification, and sets
SLOST when one is latched already. -/
def Obligations.SensorEventLatchesAChange : Prop :=
  ∀ (s : State) (code : Byte),
    decode (.ofNat 16 (0xC400 + code.toNat)) = some (.evtSensor code)
    ∧ (s.run = false ∨ code = s.sensin → exec (.evtSensor code) s = .next { s with rdata := none, sensin := code })
    ∧ (s.run = true → code ≠ s.sensin → s.spend = false →
        exec (.evtSensor code) s = .next { s with rdata := none, sensin := code, spend := true })
    ∧ (s.run = true → code ≠ s.sensin → s.spend = true →
        exec (.evtSensor code) s = .next { s with rdata := none, sensin := code, spend := true, diag.slost := true })

/-! ### The system clock -/

/-- With RUN = 0 a system clock changes nothing (R131, R144). -/
def Obligations.ClockOfAStoppedBlockChangesNothing : Prop :=
  ∀ s : State, s.run = false → exec .evtSysclk s = .next { s with rdata := none }

/-- The timers of one system clock: prescalers, skew and phases (R131, R133, R134, R137), and what a clock never touches. -/
def Obligations.ClockAdvancesTheTimers : Prop :=
  ∀ (s : State) (P : Nat), s.run = true → divisorA s = some P → P ≤ 1024 →
    s.timers.psca.toNat < P → s.timers.pscb.toNat < P →
    ∃ t, exec .evtSysclk s = .next t
      ∧ t.timers.psca.toNat = (s.timers.psca.toNat + 1) % P
      ∧ t.timers.pha.toNat = (if s.timers.psca.toNat + 1 = P then (s.timers.pha.toNat + 1) % 510 else s.timers.pha.toNat)
      ∧ (s.timers.skew = 0 → t.timers.skew = 0 ∧ t.timers.pscb.toNat = (s.timers.pscb.toNat + 1) % P
          ∧ t.timers.phb.toNat
            = (if s.timers.pscb.toNat + 1 = P then (s.timers.phb.toNat + 1) % 510 else s.timers.phb.toNat))
      ∧ (s.timers.skew ≠ 0 → t.timers.skew + 1 = s.timers.skew ∧ t.timers.pscb = s.timers.pscb
          ∧ t.timers.phb = s.timers.phb)
      ∧ t.run = true ∧ t.cfgflt = s.cfgflt ∧ t.spend = false ∧ t.sensin = s.sensin ∧ t.conf = s.conf ∧ t.cfg = s.cfg
      ∧ t.port = s.port ∧ t.rdata = none ∧ t.shadow = s.shadow ∧ t.diag.illop = s.diag.illop
      ∧ t.diag.lockwr = s.diag.lockwr ∧ t.diag.rowr = s.diag.rowr ∧ t.diag.slost = s.diag.slost

/-- R136: OCR takes OCRBUF exactly at TOP of the channel's timer, Timer A for channels 0 and 1, Timer B for 2 and 3, and nothing else
of a system clock writes OCR. -/
def Obligations.CompareValuesLoadAtTop : Prop :=
  ∀ (s : State) (P : Nat), s.run = true → divisorA s = some P →
    ∃ t, exec .evtSysclk s = .next t
      ∧ (∀ c : Chan, c.val < 2 → t.out.ocr[c]
          = (if s.timers.psca.toNat + 1 = P ∧ s.timers.pha.toNat = 254 then s.out.ocrbuf[c] else s.out.ocr[c]))
      ∧ (∀ c : Chan, 2 ≤ c.val → t.out.ocr[c]
          = (if s.timers.skew = 0 ∧ s.timers.pscb.toNat + 1 = P ∧ s.timers.phb.toNat = 254 then s.out.ocrbuf[c]
             else s.out.ocr[c]))

/-- R138: in a clock in which Timer B overflows, DRIFT is set if Timer A's phase after the clock is more than one phase step from
BOTTOM; otherwise DRIFT is as before. -/
def Obligations.AlignmentCheckSetsDrift : Prop :=
  ∀ (s : State) (P : Nat), s.run = true → divisorA s = some P →
    ∃ t, exec .evtSysclk s = .next t
      ∧ t.diag.drift = (s.diag.drift
          || (decide (s.timers.skew = 0 ∧ s.timers.pscb.toNat + 1 = P ∧ (s.timers.phb.toNat + 1) % 510 = 0)
              && decide (min t.timers.pha.toNat (510 - t.timers.pha.toNat) > 1)))

/-- A clock without an overflow of Timer A and without a notification moves only the timers, the compare values at TOP and DRIFT
(R131, R305). -/
def Obligations.ClockBetweenTicksLeavesTheRest : Prop :=
  ∀ (s : State) (P : Nat), s.run = true → divisorA s = some P → s.spend = false →
    ¬(s.timers.psca.toNat + 1 = P ∧ (s.timers.pha.toNat + 1) % 510 = 0) →
    ∃ t, exec .evtSysclk s = .next t
      ∧ t = { s with rdata := none, timers := t.timers, out.ocr := t.out.ocr, diag.drift := t.diag.drift }

/-- R143 and R233: a tick counts OVFCNT, saturating, and moves the interpolator: the duty is of the position before the advance, 0 in
cold start (R234, R235), and the advance wraps or saturates with OVR (R236). -/
def Obligations.TickCountsAndMovesTheInterpolator : Prop :=
  ∀ (s : State) (P : Nat), s.run = true → divisorA s = some P → s.spend = false →
    s.timers.psca.toNat + 1 = P → (s.timers.pha.toNat + 1) % 510 = 0 →
    ∃ t, exec .evtSysclk s = .next t
      ∧ t.interval.ovfcnt.toNat = min (s.interval.ovfcnt.toNat + 1) 65535
      ∧ t.interval.lastph = s.interval.lastph ∧ t.interval.refv = s.interval.refv
      ∧ t.est = s.est ∧ t.seqr = s.seqr ∧ t.diag.sfcnt = s.diag.sfcnt
      ∧ t.interp.duty.toNat = (if s.est.ivalid = true
          then (s.conf.pwmmax.toNat * (s.cfg.envRom.toList.getD (s.interp.fp.toNat / 256) 0).toNat + 127) / 255 else 0)
      ∧ t.interp.ovr = (s.interp.ovr || decide (s.interp.fp.toNat + s.est.rate.toNat > 65535))
      ∧ (s.conf.fpmode = .wrap → t.interp.fp = s.interp.fp + s.est.rate)
      ∧ (s.conf.fpmode = .saturate → t.interp.fp.toNat = min (s.interp.fp.toNat + s.est.rate.toNat) 65535)

/-- The step whose map is applied, and whether one is, after the compensator tick (R214): a schedule whose count is 1 applies its
target, and nothing else moves the applied step. The buffers are then those of that map with the tick's own duty (R216, R237). -/
def Obligations.TickRunsTheCompensatorAndWritesTheBuffers : Prop :=
  ∀ (s : State) (P : Nat), s.run = true → divisorA s = some P → s.spend = false →
    s.timers.psca.toNat + 1 = P → (s.timers.pha.toNat + 1) % 510 = 0 →
    ∃ t, exec .evtSysclk s = .next t
      ∧ (s.comp.pend = false → t.comp = s.comp ∧ t.out.en = s.out.en ∧ t.out.pol = s.out.pol)
      ∧ (s.comp.pend = true → s.comp.pcnt ≠ 1 →
          t.comp = { s.comp with pcnt := s.comp.pcnt - 1 } ∧ t.out.en = s.out.en ∧ t.out.pol = s.out.pol)
      ∧ (s.comp.pend = true → s.comp.pcnt = 1 →
          t.comp = { pend := false, ptgt := s.comp.ptgt, pcnt := 0, appstep := s.comp.ptgt, appv := true }
          ∧ (∀ c : Chan, t.out.en[c] = decide (chanMode (s.conf.mapAt s.comp.ptgt) c ≠ .off)
              ∧ t.out.pol[c] = decide (chanMode (s.conf.mapAt s.comp.ptgt) c = .pwmInv)))
      ∧ (t.comp.appv = false → t.out.ocrbuf = s.out.ocrbuf)
      ∧ (t.comp.appv = true → ∀ c : Chan, t.out.ocrbuf[c]
          = match chanMode (t.conf.mapAt t.comp.appstep) c with
            | .off => 0
            | .pwm => t.interp.duty
            | .on => if s.est.ivalid = true then 255 else 0
            | .pwmInv => t.interp.duty)

/-! ### The sensor service -/

/-- R166: a notification whose code is the forward neighbour's, or the reverse neighbour's, moves the position there, records the
interval exactly when the last reference was an accepted transition (R190, R191, R192), sets the new reference and resynchronizes
the interpolator. -/
def Obligations.AcceptedTransitionMovesAndRecords : Prop :=
  ∀ (s : State) (step' : Nat) (d : Direction), Inv s → s.run = true → s.spend = true → s.seqr.pv = true →
    (d = .forward ∧ step' = (s.seqr.pos.toNat + 1) % s.conf.seqlen.toNat
      ∨ d = .reverse ∧ step' = (s.seqr.pos.toNat + s.conf.seqlen.toNat - 1) % s.conf.seqlen.toNat) →
    s.conf.seq.toList[step']? = some s.sensin →
    ∃ t u, exec .evtSysclk s = .next t ∧ exec .evtSysclk { s with spend := false } = .next u
      ∧ t.seqr = { pos := .ofNat 4 step', pv := true, dir := d }
      ∧ t.interval = { ovfcnt := 0, lastph := t.timers.pha, refv := true }
      ∧ t.interp = { fp := s.cfg.fpStart, ovr := false, duty := u.interp.duty }
      ∧ (s.interval.refv = false → t.est = s.est)
      ∧ (s.interval.refv = true → ∃ total : Nat,
          total + s.interval.lastph.toNat = u.interval.ovfcnt.toNat * 510 + t.timers.pha.toNat
          ∧ t.est.ic.toNat = total / 510 ∧ t.est.ifine.toNat = total % 510 ∧ t.est.ivalid = true
          ∧ t.est.rate.toNat = (if total = 0 then 65535 else min 65535 (65536 * 510 / total)))
      ∧ t.timers = u.timers ∧ t.diag = u.diag ∧ t.out.ocr = u.out.ocr

/-- R212: what an accepted transition to step p does to the compensator and the outputs, against the same clock without the
notification. -/
def Obligations.AcceptedTransitionArmsTheCompensator : Prop :=
  ∀ (s t u : State), Inv s → s.run = true → s.spend = true → s.seqr.pv = true →
    (s.sensin = forwardCode s ∨ s.sensin = reverseCode s) →
    exec .evtSysclk s = .next t → exec .evtSysclk { s with spend := false } = .next u →
    (s.conf.phmode = .delay → s.conf.phofs ≠ 0 →
      t.comp = { u.comp with pend := true, ptgt := t.seqr.pos, pcnt := .ofNat 16 s.conf.phofs.toNat } ∧ t.out = u.out)
    ∧ (s.conf.phmode = .advance ∨ s.conf.phofs = 0 →
      t.comp.appstep = t.seqr.pos ∧ t.comp.appv = true
      ∧ ∀ c : Chan, t.out.en[c] = decide (chanMode (s.conf.mapAt t.seqr.pos) c ≠ .off)
        ∧ t.out.pol[c] = decide (chanMode (s.conf.mapAt t.seqr.pos) c = .pwmInv)
        ∧ t.out.ocrbuf[c] = chanVal (chanMode (s.conf.mapAt t.seqr.pos) c) t)
    ∧ (s.conf.phmode = .delay ∧ s.conf.phofs = 0
        ∨ s.conf.phmode = .advance ∧ ¬(t.est.ivalid = true ∧ t.est.ic.toNat > s.conf.phofs.toNat) →
      t.comp.pend = false ∧ t.comp.pcnt = 0 ∧ t.comp.ptgt = u.comp.ptgt)
    ∧ (s.conf.phmode = .advance → t.est.ivalid = true → t.est.ic.toNat > s.conf.phofs.toNat →
      t.comp.pend = true ∧ t.comp.pcnt.toNat = t.est.ic.toNat - s.conf.phofs.toNat
      ∧ (t.seqr.dir = .forward → t.comp.ptgt.toNat = (t.seqr.pos.toNat + 1) % s.conf.seqlen.toNat)
      ∧ (t.seqr.dir = .reverse →
          t.comp.ptgt.toNat = (t.seqr.pos.toNat + s.conf.seqlen.toNat - 1) % s.conf.seqlen.toNat))

/-- R165: with no position known, the first code that matches an entry is taken as the position, its map applied at once, with no
sample and no fault. -/
def Obligations.FirstMatchingCodeAcquires : Prop :=
  ∀ (s : State) (j : Fin 16), Inv s → s.run = true → s.spend = true → s.seqr.pv = false →
    j.val < s.conf.seqlen.toNat → s.conf.seq[j] = s.sensin →
    ∃ t u, exec .evtSysclk s = .next t ∧ exec .evtSysclk { s with spend := false } = .next u
      ∧ t.seqr = { pos := .ofNat 4 j.val, pv := true, dir := s.seqr.dir }
      ∧ t.interval = { ovfcnt := 0, lastph := t.timers.pha, refv := false }
      ∧ t.interp = { fp := s.cfg.fpStart, ovr := false, duty := u.interp.duty }
      ∧ t.comp = { pend := false, ptgt := u.comp.ptgt, pcnt := 0, appstep := .ofNat 4 j.val, appv := true }
      ∧ t.est = s.est ∧ t.timers = u.timers ∧ t.diag = u.diag ∧ t.out.ocr = u.out.ocr
      ∧ ∀ c : Chan, t.out.en[c] = decide (chanMode s.conf.chmap[j] c ≠ .off)
        ∧ t.out.pol[c] = decide (chanMode s.conf.chmap[j] c = .pwmInv)
        ∧ t.out.ocrbuf[c] = chanVal (chanMode s.conf.chmap[j] c) t

/-- R167: a discarded notification leaves every state element as the same clock without it does, except SFCNT, which counts every
code but the current step's. -/
def Obligations.DiscardedNotificationChangesSfcntAlone : Prop :=
  ∀ (s u : State), s.run = true → s.spend = true → exec .evtSysclk { s with spend := false } = .next u →
    (s.seqr.pv = true → s.sensin ≠ forwardCode s → s.sensin ≠ reverseCode s →
      exec .evtSysclk s = .next { u with
        diag.sfcnt := (if s.sensin = currentCode s then u.diag.sfcnt else .ofNat 8 (min (u.diag.sfcnt.toNat + 1) 255)) })
    ∧ (s.seqr.pv = false → (∀ j : Fin 16, j.val < s.conf.seqlen.toNat → s.conf.seq[j] ≠ s.sensin) →
      exec .evtSysclk s = .next { u with diag.sfcnt := .ofNat 8 (min (u.diag.sfcnt.toNat + 1) 255) })

/-- R170 (a): while a position is known and the block runs, the position moves only in a system clock, and only to a neighbour. -/
def Obligations.PositionMovesOnlyToANeighbour : Prop :=
  ∀ (w : OpWord) (s t : State), Inv s → s.run = true → s.seqr.pv = true → decode w ≠ some .evtReset →
    deliver w s = .next t →
    t.seqr.pv = true
    ∧ (t.seqr.pos = s.seqr.pos
      ∨ decode w = some .evtSysclk
        ∧ (t.seqr.pos.toNat = (s.seqr.pos.toNat + 1) % s.conf.seqlen.toNat
          ∨ t.seqr.pos.toNat = (s.seqr.pos.toNat + s.conf.seqlen.toNat - 1) % s.conf.seqlen.toNat))

/-! ### Arithmetic -/

/-- R192, with its bounds: 0xFFFF for a step of one tick or less, and at least 1 for every total the block can produce. -/
def Obligations.RateIsTheFloorOfSpanPerTick : Prop :=
  (rateOf 0 = 0xFFFF)
  ∧ (∀ total : Nat, total ≠ 0 → (rateOf total).toNat = min 65535 (65536 * 510 / total))
  ∧ (∀ total : Nat, total ≤ 510 → (rateOf total).toNat = 65535)
  ∧ (∀ total : Nat, total ≤ 33423359 → 1 ≤ (rateOf total).toNat)

/-- R195: for a constant interval of T ticks the rate is span / T, exact from the recorded interval alone; T = 1 saturates. -/
def Obligations.RateOfWholeTicksIsSpanOverTicks : Prop :=
  (∀ T : Nat, 1 < T → T ≤ 65535 → (rateOf (T * 510)).toNat = 65536 / T) ∧ rateOf 510 = 0xFFFF

/-- R234: the duty is a * e / 255 rounded to nearest with no halfway case, never above the amplitude, non-decreasing in the entry,
and bounded by the last entry of a conforming table. -/
def Obligations.DutyIsRoundedToNearest : Prop :=
  ∀ a e : Byte,
    (dutyOf a e).toNat = (a.toNat * e.toNat + 127) / 255
    ∧ 2 * a.toNat * e.toNat < 255 * (2 * (dutyOf a e).toNat + 1)
    ∧ 255 * (2 * (dutyOf a e).toNat) < 2 * a.toNat * e.toNat + 255
    ∧ (dutyOf a e).toNat ≤ a.toNat
    ∧ dutyOf a 0 = 0 ∧ dutyOf 0 e = 0 ∧ dutyOf 255 e = e ∧ dutyOf a 255 = a
    ∧ (∀ f : Byte, e ≤ f → dutyOf a e ≤ dutyOf a f)
    ∧ (∀ (cfg : Config) (i : Byte), cfg.romConforms = true → dutyOf a (envAt cfg i) ≤ dutyOf a (envAt cfg 255))
    ∧ dutyOf 1 127 = 0 ∧ dutyOf 1 128 = 1 ∧ dutyOf 200 128 = 100

/-- The default parameters are ones a model may be built with (R132, R232), and the default table has the properties R231 lists. -/
def Obligations.DefaultParametersConform : Prop :=
  Config.default.wf = true
  ∧ envAt Config.default 0 = 0 ∧ envAt Config.default 255 = 255 ∧ envAt Config.default 127 = 127
  ∧ envAt Config.default 128 = 128
  ∧ (∀ i : Fin 256, (envAt Config.default (.ofNat 8 i.val)).toNat + (envAt Config.default (.ofNat 8 (255 - i.val))).toNat = 255)
  ∧ (∀ i : Fin 255, envAt Config.default (.ofNat 8 i.val) ≤ envAt Config.default (.ofNat 8 (i.val + 1)))
  ∧ (envTable.map BitVec.toNat).sum = 32640
  ∧ (List.range 8).map (fun k => classValid Config.default (.ofNat 3 k))
      = [true, true, false, true, false, true, true, false]

/-! ### Pins -/

/-- R140: the level of each pin, and the comparator in counter terms (R134). -/
def Obligations.PinsFollowTheComparator : Prop :=
  (∀ (s : State) (c : Chan), pin s c = if s.out.en[c] = false then .z
      else if s.out.pol[c] = high (if c.val < 2 then s.timers.pha else s.timers.phb) s.out.ocr[c] then .low else .high)
  ∧ (∀ (p : Phase) (o : Byte), p.toNat < 510 →
      (high p o = true ↔ p.toNat < o.toNat ∨ 510 ≤ p.toNat + o.toNat)
      ∧ (p.toNat < 255 → (high p o = true ↔ tcnt p < o.toNat))
      ∧ (255 ≤ p.toNat → (high p o = true ↔ tcnt p ≤ o.toNat)))

/-- R140: the comparator is high for exactly 2 * o of the 510 phases of a period, so the duty is exactly o/255. -/
def Obligations.PulseLastsTwiceTheCompareValue : Prop :=
  ∀ o : Byte, ((List.range 510).filter fun p => high (.ofNat 9 p) o).length = 2 * o.toNat

/-- A stopped block drives no pin (R266, R331). -/
def Obligations.StoppedBlockDrivesNoPin : Prop :=
  ∀ (s : State) (c : Chan), Inv s → s.run = false → pin s c = .z

/-- R218, R235: in cold start every enabled channel drives a compare value of 0, whatever PWMMAX is: low, or high where its polarity is
inverted. -/
def Obligations.ColdStartDrivesCompareValueZero : Prop :=
  ∀ (s : State) (c : Chan), Inv s → s.est.ivalid = false →
    s.interp.duty = 0 ∧ s.out.ocr[c] = 0
    ∧ pin s c = if s.out.en[c] = false then .z else if s.out.pol[c] = true then .high else .low

/-! ### The whole machine -/

/-- The invariant holds after reset, for every choice of parameters a model may be built with. -/
def Obligations.InvariantHoldsAtReset : Prop :=
  (∀ (cfg : Config) (port : List OpWord), cfg.wf = true → Inv (State.atReset cfg port)) ∧ Inv State.reset

/-- Every step from a state that meets the invariant gives one that meets it. -/
def Obligations.EveryStepKeepsTheInvariant : Prop :=
  ∀ s t : State, Inv s → step s = .next t → Inv t

/-- R145, the alignment law, over every sequence of operations after a START without STOP or reset: the phases at t system clocks, and
DRIFT exactly when Timer B has overflowed at a bad alignment. -/
def Obligations.AlignmentLaw : Prop :=
  ∀ (s s0 u : State) (P : Nat) (ws : List OpWord),
    s.cfg.wf = true → s.run = false → s.cfgflt = false → cfgValid s = true → divisorA s = some P →
    exec .start s = .next s0 →
    (∀ w ∈ ws, decode w ≠ some .stop ∧ decode w ≠ some .evtReset) →
    finalOf ws s0 = some u →
    let t := ws.count (encode .evtSysclk)
    let skew := s.cfg.startSkew
    let align := s.conf.align.toNat
    let x := (skew / P + 510 - align) % 510
    u.timers.pha.toNat = t / P % 510
    ∧ (skew ≤ t → u.timers.phb.toNat = (align + (t - skew) / P) % 510)
    ∧ ((∀ w ∈ ws, decode w ≠ some .clrdiag) →
        u.diag.drift = (s.diag.drift || (decide (skew + P * (510 - align) ≤ t) && decide (min x (510 - x) > 1))))

/-- R214, R220: a schedule armed with count k applies at the k-th overflow of Timer A after it and not before, counted in system
clocks from the timer's position. -/
def Obligations.ScheduleAppliesAtItsTick : Prop :=
  ∀ (s u : State) (P n : Nat), Inv s → s.run = true → s.spend = false → s.comp.pend = true → divisorA s = some P →
    finalOf (clocks n) s = some u →
    let ticks := (s.timers.pha.toNat * P + s.timers.psca.toNat + n) / (510 * P)
    (ticks < s.comp.pcnt.toNat →
      u.comp.pend = true ∧ u.comp.pcnt.toNat + ticks = s.comp.pcnt.toNat ∧ u.comp.appstep = s.comp.appstep
      ∧ u.out.en = s.out.en ∧ u.out.pol = s.out.pol)
    ∧ (s.comp.pcnt.toNat ≤ ticks →
      u.comp.pend = false ∧ u.comp.appstep = s.comp.ptgt ∧ u.comp.appv = true ∧ FollowsMap u)

/-- R301: no rule reads ILLOP, LOCKWR, ROWR, SLOST, DRIFT or SFCNT. Two runs of the same words from states that differ only there end in
states that differ only there, and return the same bytes if no word reads STATUS, ERR or SFCNT. -/
def Obligations.DiagnosticsAreNeverRead : Prop :=
  ∀ (ws : List OpWord) (s t u : State) (d : Diag) (bs cs : List Byte),
    runWords ws s = some (t, bs) → runWords ws { s with diag := d } = some (u, cs) →
    { u with diag := t.diag, rdata := t.rdata } = t
    ∧ ((∀ w ∈ ws, decode w ≠ some (.rd 0x01) ∧ decode w ≠ some (.rd 0x02) ∧ decode w ≠ some (.rd 0x0B)) → bs = cs)

/-- R238: the wrap signal is advisory. Two steps from states that differ only in OVR give states that differ only there, but for the
byte a read of STATUS returns. -/
def Obligations.WrapSignalIsAdvisory : Prop :=
  ∀ (w : OpWord) (s t u : State) (b : Bool), deliver w s = .next t → deliver w { s with interp.ovr := b } = .next u →
    { u with interp.ovr := t.interp.ovr, rdata := t.rdata } = t
    ∧ (decode w ≠ some (.rd 0x01) → u.rdata = t.rdata)

/-- R301 and R83: a recorded error stays until CLRDIAG or reset, and each is set only by the operation that detects it. -/
def Obligations.ErrorsAreStickyAndSetByTheirOperation : Prop :=
  ∀ (w : OpWord) (s t : State), deliver w s = .next t → decode w ≠ some .clrdiag → decode w ≠ some .evtReset →
    t.diag.illop = (s.diag.illop || (decode w).isNone)
    ∧ t.diag.lockwr = (s.diag.lockwr || (match decode w with
        | some (.wr a _) => decide (regAccess (regAt a) = .rwl) && s.run
        | _ => false))
    ∧ t.diag.rowr = (s.diag.rowr || (match decode w with
        | some (.wr a _) => decide (regAccess (regAt a) = .ro)
        | _ => false))
    ∧ t.diag.slost = (s.diag.slost || (match decode w with
        | some (.evtSensor code) => s.run && s.spend && decide (code ≠ s.sensin)
        | _ => false))
    ∧ (s.diag.drift = true → t.diag.drift = true)
    ∧ s.diag.sfcnt ≤ t.diag.sfcnt
    ∧ (decode w ≠ some .evtSysclk → t.diag.drift = s.diag.drift ∧ t.diag.sfcnt = s.diag.sfcnt)
    ∧ (s.cfgflt = true → t.cfgflt = true)

/-- R139: nothing but a system clock of a running block, a successful START and reset moves the timers. -/
def Obligations.TimersMoveOnlyWithTheClock : Prop :=
  ∀ (w : OpWord) (s t : State), deliver w s = .next t →
    decode w ≠ some .evtReset → (decode w = some .evtSysclk → s.run = false) → (decode w = some .start → s.run = true) →
    t.timers = s.timers

/-! ### The assembler notation -/

/-- R121: an operand that does not fit its field is an assembly error, and one that fits is never cut. -/
def Obligations.AssemblerNeverCutsAnOperand : Prop :=
  ∀ a d : Nat,
    (assemble (.wr a d) = none ↔ 0x3F < a ∨ 0xFF < d)
    ∧ (assemble (.rd a) = none ↔ 0x3F < a)
    ∧ (assemble (.sensor d) = none ↔ 0xFF < d)
    ∧ (∀ ops, assemble (.wr a d) = some ops → ∃ a' d', ops = [.wr a' d'] ∧ a'.toNat = a ∧ d'.toNat = d)

/-- R122: WR16 writes ALIGN whole, and CFGSEQ writes SEQLEN and the entries, of a stopped block. -/
def Obligations.PseudoInstructionsConfigureTheBlock : Prop :=
  (∀ (s : State) (v : Nat), s.run = false → v ≤ 0x1FF →
    ∃ ops t, assemble (.wr16 0x08 v) = some ops ∧ finalOf (ops.map encode) s = some t
      ∧ t = { s with rdata := none, conf.align := .ofNat 9 v })
  ∧ (∀ (s : State) (codes : List Byte), s.run = false → 1 ≤ codes.length → codes.length ≤ 16 →
    ∃ ops t, assemble (.cfgseq (codes.map BitVec.toNat)) = some ops ∧ finalOf (ops.map encode) s = some t
      ∧ t.conf.seqlen.toNat = codes.length ∧ t.conf.entries = codes)
end

