-- ==== Sys2Proof/Laws/Decode.lean ====
section
/-!
SUPPORT. The fields of an encoded word: each field of a format reads back as the operand it was built from (R113 to R117).
-/

namespace Sys2Proof

/-- CL of format W (R113). -/
theorem classField_encodeWrite (a : RegAddr) (d : Byte) : classField (encodeWrite a d) = 0 := by
  apply BitVec.eq_of_getLsbD_eq
  intro i hi
  simp [classField, encodeWrite]
  grind

/-- ADDR of format W (R113). -/
theorem addrField_encodeWrite (a : RegAddr) (d : Byte) : addrField (encodeWrite a d) = a := by
  apply BitVec.eq_of_getLsbD_eq
  intro i hi
  simp [addrField, encodeWrite]
  grind

/-- DATA of format W (R113). -/
theorem dataField_encodeWrite (a : RegAddr) (d : Byte) : dataField (encodeWrite a d) = d := by
  apply BitVec.eq_of_getLsbD_eq
  intro i hi
  simp [dataField, encodeWrite]
  grind

/-- CL of format R (R114). -/
theorem classField_encodeRead (a : RegAddr) : classField (encodeRead a) = 1 := by revert a; decide

/-- ADDR of format R (R114). -/
theorem addrField_encodeRead (a : RegAddr) : addrField (encodeRead a) = a := by revert a; decide

/-- The low byte of format R is 0 (R114). -/
theorem dataField_encodeRead (a : RegAddr) : dataField (encodeRead a) = 0 := by revert a; decide

/-- A word is its class, the field w[13:8] and its low byte (R110, R117). -/
theorem word_eq_fields (w : OpWord) : w = classField w ++ addrField w ++ dataField w := by
  apply BitVec.eq_of_getLsbD_eq
  intro i hi
  simp [classField, addrField, dataField]
  grind

end Sys2Proof
end

