-- ==== Sys2Proof/Laws/State.lean ====
section
/-!
SUPPORT. For each named update of the state, every field after it: what it writes and, for all the others, that they are as before.
Each is one conjunction of equations, which simp reads as one rewrite rule for each field.
-/

namespace Sys2Proof.Machine

/-- Every field after `cancelSchedule` (R212). -/
@[simp] theorem cancelSchedule_fields (s : State) :
    (cancelSchedule s).cfg = s.cfg ∧ (cancelSchedule s).port = s.port ∧ (cancelSchedule s).rdata = s.rdata
    ∧ (cancelSchedule s).conf = s.conf ∧ (cancelSchedule s).run = s.run ∧ (cancelSchedule s).cfgflt = s.cfgflt
    ∧ (cancelSchedule s).sensin = s.sensin ∧ (cancelSchedule s).spend = s.spend ∧ (cancelSchedule s).seqr = s.seqr
    ∧ (cancelSchedule s).timers = s.timers ∧ (cancelSchedule s).interval = s.interval ∧ (cancelSchedule s).est = s.est
    ∧ (cancelSchedule s).interp = s.interp ∧ (cancelSchedule s).comp = { s.comp with pend := false, pcnt := 0 }
    ∧ (cancelSchedule s).out = s.out ∧ (cancelSchedule s).diag = s.diag ∧ (cancelSchedule s).shadow = s.shadow :=
  ⟨rfl, rfl, rfl, rfl, rfl, rfl, rfl, rfl, rfl, rfl, rfl, rfl, rfl, rfl, rfl, rfl, rfl⟩

/-- Every field after `schedule` (R212). -/
@[simp] theorem schedule_fields (p : StepIx) (k : BitVec 16) (s : State) :
    (schedule p k s).cfg = s.cfg ∧ (schedule p k s).port = s.port ∧ (schedule p k s).rdata = s.rdata
    ∧ (schedule p k s).conf = s.conf ∧ (schedule p k s).run = s.run ∧ (schedule p k s).cfgflt = s.cfgflt
    ∧ (schedule p k s).sensin = s.sensin ∧ (schedule p k s).spend = s.spend ∧ (schedule p k s).seqr = s.seqr
    ∧ (schedule p k s).timers = s.timers ∧ (schedule p k s).interval = s.interval ∧ (schedule p k s).est = s.est
    ∧ (schedule p k s).interp = s.interp ∧ (schedule p k s).comp = { s.comp with pend := true, ptgt := p, pcnt := k }
    ∧ (schedule p k s).out = s.out ∧ (schedule p k s).diag = s.diag ∧ (schedule p k s).shadow = s.shadow :=
  ⟨rfl, rfl, rfl, rfl, rfl, rfl, rfl, rfl, rfl, rfl, rfl, rfl, rfl, rfl, rfl, rfl, rfl⟩

/-- Every field after `applyMap` (R215). -/
@[simp] theorem applyMap_fields (p : StepIx) (s : State) :
    (applyMap p s).cfg = s.cfg ∧ (applyMap p s).port = s.port ∧ (applyMap p s).rdata = s.rdata
    ∧ (applyMap p s).conf = s.conf ∧ (applyMap p s).run = s.run ∧ (applyMap p s).cfgflt = s.cfgflt
    ∧ (applyMap p s).sensin = s.sensin ∧ (applyMap p s).spend = s.spend ∧ (applyMap p s).seqr = s.seqr
    ∧ (applyMap p s).timers = s.timers ∧ (applyMap p s).interval = s.interval ∧ (applyMap p s).est = s.est
    ∧ (applyMap p s).interp = s.interp ∧ (applyMap p s).comp = { s.comp with appstep := p, appv := true }
    ∧ (applyMap p s).out = { s.out with en := mapEnables (s.conf.mapAt p), pol := mapPolarities (s.conf.mapAt p), ocrbuf := mapBuffers (s.conf.mapAt p) s }
    ∧ (applyMap p s).diag = s.diag ∧ (applyMap p s).shadow = s.shadow :=
  ⟨rfl, rfl, rfl, rfl, rfl, rfl, rfl, rfl, rfl, rfl, rfl, rfl, rfl, rfl, rfl, rfl, rfl⟩

/-- Every field after `countDown` (R214). -/
@[simp] theorem countDown_fields (s : State) :
    (countDown s).cfg = s.cfg ∧ (countDown s).port = s.port ∧ (countDown s).rdata = s.rdata
    ∧ (countDown s).conf = s.conf ∧ (countDown s).run = s.run ∧ (countDown s).cfgflt = s.cfgflt
    ∧ (countDown s).sensin = s.sensin ∧ (countDown s).spend = s.spend ∧ (countDown s).seqr = s.seqr
    ∧ (countDown s).timers = s.timers ∧ (countDown s).interval = s.interval ∧ (countDown s).est = s.est
    ∧ (countDown s).interp = s.interp ∧ (countDown s).comp = { s.comp with pcnt := s.comp.pcnt - 1 }
    ∧ (countDown s).out = s.out ∧ (countDown s).diag = s.diag ∧ (countDown s).shadow = s.shadow :=
  ⟨rfl, rfl, rfl, rfl, rfl, rfl, rfl, rfl, rfl, rfl, rfl, rfl, rfl, rfl, rfl, rfl, rfl⟩

/-- Every field after `placeAt` (R165, R270). -/
@[simp] theorem placeAt_fields (j : StepIx) (s : State) :
    (placeAt j s).cfg = s.cfg ∧ (placeAt j s).port = s.port ∧ (placeAt j s).rdata = s.rdata
    ∧ (placeAt j s).conf = s.conf ∧ (placeAt j s).run = s.run ∧ (placeAt j s).cfgflt = s.cfgflt
    ∧ (placeAt j s).sensin = s.sensin ∧ (placeAt j s).spend = s.spend
    ∧ (placeAt j s).seqr = { s.seqr with pos := j, pv := true } ∧ (placeAt j s).timers = s.timers
    ∧ (placeAt j s).interval = s.interval ∧ (placeAt j s).est = s.est ∧ (placeAt j s).interp = s.interp
    ∧ (placeAt j s).comp = s.comp ∧ (placeAt j s).out = s.out ∧ (placeAt j s).diag = s.diag
    ∧ (placeAt j s).shadow = s.shadow :=
  ⟨rfl, rfl, rfl, rfl, rfl, rfl, rfl, rfl, rfl, rfl, rfl, rfl, rfl, rfl, rfl, rfl, rfl⟩

/-- Every field after `moveTo` (R166). -/
@[simp] theorem moveTo_fields (p : StepIx) (d : Direction) (s : State) :
    (moveTo p d s).cfg = s.cfg ∧ (moveTo p d s).port = s.port ∧ (moveTo p d s).rdata = s.rdata
    ∧ (moveTo p d s).conf = s.conf ∧ (moveTo p d s).run = s.run ∧ (moveTo p d s).cfgflt = s.cfgflt
    ∧ (moveTo p d s).sensin = s.sensin ∧ (moveTo p d s).spend = s.spend
    ∧ (moveTo p d s).seqr = { s.seqr with pos := p, dir := d } ∧ (moveTo p d s).timers = s.timers
    ∧ (moveTo p d s).interval = s.interval ∧ (moveTo p d s).est = s.est ∧ (moveTo p d s).interp = s.interp
    ∧ (moveTo p d s).comp = s.comp ∧ (moveTo p d s).out = s.out ∧ (moveTo p d s).diag = s.diag
    ∧ (moveTo p d s).shadow = s.shadow :=
  ⟨rfl, rfl, rfl, rfl, rfl, rfl, rfl, rfl, rfl, rfl, rfl, rfl, rfl, rfl, rfl, rfl, rfl⟩

/-- Every field after `fireSchedule` (R214). -/
@[simp] theorem fireSchedule_fields (s : State) :
    (fireSchedule s).cfg = s.cfg ∧ (fireSchedule s).port = s.port ∧ (fireSchedule s).rdata = s.rdata
    ∧ (fireSchedule s).conf = s.conf ∧ (fireSchedule s).run = s.run ∧ (fireSchedule s).cfgflt = s.cfgflt
    ∧ (fireSchedule s).sensin = s.sensin ∧ (fireSchedule s).spend = s.spend ∧ (fireSchedule s).seqr = s.seqr
    ∧ (fireSchedule s).timers = s.timers ∧ (fireSchedule s).interval = s.interval ∧ (fireSchedule s).est = s.est
    ∧ (fireSchedule s).interp = s.interp
    ∧ (fireSchedule s).comp = { s.comp with pend := false, appstep := s.comp.ptgt, appv := true }
    ∧ (fireSchedule s).out = { s.out with en := mapEnables (s.conf.mapAt s.comp.ptgt), pol := mapPolarities (s.conf.mapAt s.comp.ptgt), ocrbuf := mapBuffers (s.conf.mapAt s.comp.ptgt) s }
    ∧ (fireSchedule s).diag = s.diag ∧ (fireSchedule s).shadow = s.shadow :=
  ⟨rfl, rfl, rfl, rfl, rfl, rfl, rfl, rfl, rfl, rfl, rfl, rfl, rfl, rfl, rfl, rfl, rfl⟩

/-- Every field after `setReference` (R36). -/
@[simp] theorem setReference_fields (e : Bool) (s : State) :
    (setReference e s).cfg = s.cfg ∧ (setReference e s).port = s.port ∧ (setReference e s).rdata = s.rdata
    ∧ (setReference e s).conf = s.conf ∧ (setReference e s).run = s.run ∧ (setReference e s).cfgflt = s.cfgflt
    ∧ (setReference e s).sensin = s.sensin ∧ (setReference e s).spend = s.spend ∧ (setReference e s).seqr = s.seqr
    ∧ (setReference e s).timers = s.timers
    ∧ (setReference e s).interval = { ovfcnt := 0, lastph := s.timers.pha, refv := e } ∧ (setReference e s).est = s.est
    ∧ (setReference e s).interp = s.interp ∧ (setReference e s).comp = s.comp ∧ (setReference e s).out = s.out
    ∧ (setReference e s).diag = s.diag ∧ (setReference e s).shadow = s.shadow :=
  ⟨rfl, rfl, rfl, rfl, rfl, rfl, rfl, rfl, rfl, rfl, rfl, rfl, rfl, rfl, rfl, rfl, rfl⟩

/-- Every field after `resyncFp` (R165, R166). -/
@[simp] theorem resyncFp_fields (s : State) :
    (resyncFp s).cfg = s.cfg ∧ (resyncFp s).port = s.port ∧ (resyncFp s).rdata = s.rdata ∧ (resyncFp s).conf = s.conf
    ∧ (resyncFp s).run = s.run ∧ (resyncFp s).cfgflt = s.cfgflt ∧ (resyncFp s).sensin = s.sensin
    ∧ (resyncFp s).spend = s.spend ∧ (resyncFp s).seqr = s.seqr ∧ (resyncFp s).timers = s.timers
    ∧ (resyncFp s).interval = s.interval ∧ (resyncFp s).est = s.est
    ∧ (resyncFp s).interp = { s.interp with fp := s.cfg.fpStart, ovr := false } ∧ (resyncFp s).comp = s.comp
    ∧ (resyncFp s).out = s.out ∧ (resyncFp s).diag = s.diag ∧ (resyncFp s).shadow = s.shadow :=
  ⟨rfl, rfl, rfl, rfl, rfl, rfl, rfl, rfl, rfl, rfl, rfl, rfl, rfl, rfl, rfl, rfl, rfl⟩

/-- Every field after `advanceFp` (R236). -/
@[simp] theorem advanceFp_fields (s : State) :
    (advanceFp s).cfg = s.cfg ∧ (advanceFp s).port = s.port ∧ (advanceFp s).rdata = s.rdata
    ∧ (advanceFp s).conf = s.conf ∧ (advanceFp s).run = s.run ∧ (advanceFp s).cfgflt = s.cfgflt
    ∧ (advanceFp s).sensin = s.sensin ∧ (advanceFp s).spend = s.spend ∧ (advanceFp s).seqr = s.seqr
    ∧ (advanceFp s).timers = s.timers ∧ (advanceFp s).interval = s.interval ∧ (advanceFp s).est = s.est
    ∧ (advanceFp s).interp = { s.interp with fp := fpNext s.conf.fpmode s.interp.fp s.est.rate, ovr := s.interp.ovr || fpOverruns s.interp.fp s.est.rate }
    ∧ (advanceFp s).comp = s.comp ∧ (advanceFp s).out = s.out ∧ (advanceFp s).diag = s.diag
    ∧ (advanceFp s).shadow = s.shadow :=
  ⟨rfl, rfl, rfl, rfl, rfl, rfl, rfl, rfl, rfl, rfl, rfl, rfl, rfl, rfl, rfl, rfl, rfl⟩

/-- Every field after `countOverflow` (R143). -/
@[simp] theorem countOverflow_fields (s : State) :
    (countOverflow s).cfg = s.cfg ∧ (countOverflow s).port = s.port ∧ (countOverflow s).rdata = s.rdata
    ∧ (countOverflow s).conf = s.conf ∧ (countOverflow s).run = s.run ∧ (countOverflow s).cfgflt = s.cfgflt
    ∧ (countOverflow s).sensin = s.sensin ∧ (countOverflow s).spend = s.spend ∧ (countOverflow s).seqr = s.seqr
    ∧ (countOverflow s).timers = s.timers
    ∧ (countOverflow s).interval = { s.interval with ovfcnt := satInc16 s.interval.ovfcnt }
    ∧ (countOverflow s).est = s.est ∧ (countOverflow s).interp = s.interp ∧ (countOverflow s).comp = s.comp
    ∧ (countOverflow s).out = s.out ∧ (countOverflow s).diag = s.diag ∧ (countOverflow s).shadow = s.shadow :=
  ⟨rfl, rfl, rfl, rfl, rfl, rfl, rfl, rfl, rfl, rfl, rfl, rfl, rfl, rfl, rfl, rfl, rfl⟩

/-- Every field after `clockTimers` (R131). -/
@[simp] theorem clockTimers_fields (s : State) :
    (clockTimers s).cfg = s.cfg ∧ (clockTimers s).port = s.port ∧ (clockTimers s).rdata = s.rdata
    ∧ (clockTimers s).conf = s.conf ∧ (clockTimers s).run = s.run ∧ (clockTimers s).cfgflt = s.cfgflt
    ∧ (clockTimers s).sensin = s.sensin ∧ (clockTimers s).spend = s.spend ∧ (clockTimers s).seqr = s.seqr
    ∧ (clockTimers s).timers = s.timers.clock (divisorA s) ∧ (clockTimers s).interval = s.interval
    ∧ (clockTimers s).est = s.est ∧ (clockTimers s).interp = s.interp ∧ (clockTimers s).comp = s.comp
    ∧ (clockTimers s).out = s.out.load (topsA (divisorA s) s.timers) (topsB (divisorA s) s.timers)
    ∧ (clockTimers s).diag = s.diag ∧ (clockTimers s).shadow = s.shadow :=
  ⟨rfl, rfl, rfl, rfl, rfl, rfl, rfl, rfl, rfl, rfl, rfl, rfl, rfl, rfl, rfl, rfl, rfl⟩

/-- Every field after `startState` (R264). -/
@[simp] theorem startState_fields (s : State) :
    (startState s).cfg = s.cfg ∧ (startState s).port = s.port ∧ (startState s).rdata = s.rdata
    ∧ (startState s).conf = s.conf ∧ (startState s).run = true ∧ (startState s).cfgflt = s.cfgflt
    ∧ (startState s).sensin = s.sensin ∧ (startState s).spend = false
    ∧ (startState s).seqr = { pos := 0, pv := false, dir := .forward }
    ∧ (startState s).timers = { pha := 0, phb := s.conf.align, psca := 0, pscb := 0, skew := s.cfg.startSkew }
    ∧ (startState s).interval = { ovfcnt := 0, lastph := 0, refv := false }
    ∧ (startState s).est = { ic := 0, ifine := 0, rate := 0, ivalid := false }
    ∧ (startState s).interp = { fp := s.cfg.fpStart, ovr := false, duty := 0 }
    ∧ (startState s).comp = { pend := false, ptgt := 0, pcnt := 0, appstep := 0, appv := false }
    ∧ (startState s).out = Outputs.allOff ∧ (startState s).diag = s.diag ∧ (startState s).shadow = s.shadow :=
  ⟨rfl, rfl, rfl, rfl, rfl, rfl, rfl, rfl, rfl, rfl, rfl, rfl, rfl, rfl, rfl, rfl, rfl⟩

/-- Every field after `stopBlock` (R266). -/
@[simp] theorem stopBlock_fields (s : State) :
    (stopBlock s).cfg = s.cfg ∧ (stopBlock s).port = s.port ∧ (stopBlock s).rdata = s.rdata
    ∧ (stopBlock s).conf = s.conf ∧ (stopBlock s).run = false ∧ (stopBlock s).cfgflt = s.cfgflt
    ∧ (stopBlock s).sensin = s.sensin ∧ (stopBlock s).spend = false ∧ (stopBlock s).seqr = s.seqr
    ∧ (stopBlock s).timers = s.timers ∧ (stopBlock s).interval = s.interval ∧ (stopBlock s).est = s.est
    ∧ (stopBlock s).interp = { s.interp with duty := 0 } ∧ (stopBlock s).comp = { s.comp with pend := false }
    ∧ (stopBlock s).out = Outputs.allOff ∧ (stopBlock s).diag = s.diag ∧ (stopBlock s).shadow = s.shadow :=
  ⟨rfl, rfl, rfl, rfl, rfl, rfl, rfl, rfl, rfl, rfl, rfl, rfl, rfl, rfl, rfl, rfl, rfl⟩

/-- Every field after `clearDiag` (R267). -/
@[simp] theorem clearDiag_fields (s : State) :
    (clearDiag s).cfg = s.cfg ∧ (clearDiag s).port = s.port ∧ (clearDiag s).rdata = s.rdata
    ∧ (clearDiag s).conf = s.conf ∧ (clearDiag s).run = s.run ∧ (clearDiag s).cfgflt = s.cfgflt
    ∧ (clearDiag s).sensin = s.sensin ∧ (clearDiag s).spend = s.spend ∧ (clearDiag s).seqr = s.seqr
    ∧ (clearDiag s).timers = s.timers ∧ (clearDiag s).interval = s.interval ∧ (clearDiag s).est = s.est
    ∧ (clearDiag s).interp = s.interp ∧ (clearDiag s).comp = s.comp ∧ (clearDiag s).out = s.out
    ∧ (clearDiag s).diag = { illop := false, lockwr := false, rowr := false, slost := false, drift := false, sfcnt := 0 }
    ∧ (clearDiag s).shadow = s.shadow :=
  ⟨rfl, rfl, rfl, rfl, rfl, rfl, rfl, rfl, rfl, rfl, rfl, rfl, rfl, rfl, rfl, rfl, rfl⟩

/-- Every field after `offer` (R7). -/
@[simp] theorem offer_fields (w : OpWord) (s : State) :
    (offer w s).cfg = s.cfg ∧ (offer w s).port = w :: s.port ∧ (offer w s).rdata = s.rdata ∧ (offer w s).conf = s.conf
    ∧ (offer w s).run = s.run ∧ (offer w s).cfgflt = s.cfgflt ∧ (offer w s).sensin = s.sensin
    ∧ (offer w s).spend = s.spend ∧ (offer w s).seqr = s.seqr ∧ (offer w s).timers = s.timers
    ∧ (offer w s).interval = s.interval ∧ (offer w s).est = s.est ∧ (offer w s).interp = s.interp
    ∧ (offer w s).comp = s.comp ∧ (offer w s).out = s.out ∧ (offer w s).diag = s.diag ∧ (offer w s).shadow = s.shadow :=
  ⟨rfl, rfl, rfl, rfl, rfl, rfl, rfl, rfl, rfl, rfl, rfl, rfl, rfl, rfl, rfl, rfl, rfl⟩

/-- Every field after `recordSample` (R191). -/
@[simp] theorem recordSample_fields (s : State) :
    (recordSample s).cfg = s.cfg ∧ (recordSample s).port = s.port ∧ (recordSample s).rdata = s.rdata
    ∧ (recordSample s).conf = s.conf ∧ (recordSample s).run = s.run ∧ (recordSample s).cfgflt = s.cfgflt
    ∧ (recordSample s).sensin = s.sensin ∧ (recordSample s).spend = s.spend ∧ (recordSample s).seqr = s.seqr
    ∧ (recordSample s).timers = s.timers ∧ (recordSample s).interval = s.interval
    ∧ (recordSample s).est = (if s.interval.refv then sampleOf (intervalTotal s) else s.est)
    ∧ (recordSample s).interp = s.interp ∧ (recordSample s).comp = s.comp ∧ (recordSample s).out = s.out
    ∧ (recordSample s).diag = s.diag ∧ (recordSample s).shadow = s.shadow := by
  unfold recordSample
  split <;> simp_all 

/-- Every field after `setDuty` (R233). -/
@[simp] theorem setDuty_fields (s : State) :
    (setDuty s).cfg = s.cfg ∧ (setDuty s).port = s.port ∧ (setDuty s).rdata = s.rdata ∧ (setDuty s).conf = s.conf
    ∧ (setDuty s).run = s.run ∧ (setDuty s).cfgflt = s.cfgflt ∧ (setDuty s).sensin = s.sensin
    ∧ (setDuty s).spend = s.spend ∧ (setDuty s).seqr = s.seqr ∧ (setDuty s).timers = s.timers
    ∧ (setDuty s).interval = s.interval ∧ (setDuty s).est = s.est
    ∧ (setDuty s).interp = { s.interp with duty := tickDuty s } ∧ (setDuty s).comp = s.comp ∧ (setDuty s).out = s.out
    ∧ (setDuty s).diag = s.diag ∧ (setDuty s).shadow = s.shadow := by
  unfold setDuty
  split <;> simp_all [recordError]

/-- Every field after `writeBuffers` (R237). -/
@[simp] theorem writeBuffers_fields (s : State) :
    (writeBuffers s).cfg = s.cfg ∧ (writeBuffers s).port = s.port ∧ (writeBuffers s).rdata = s.rdata
    ∧ (writeBuffers s).conf = s.conf ∧ (writeBuffers s).run = s.run ∧ (writeBuffers s).cfgflt = s.cfgflt
    ∧ (writeBuffers s).sensin = s.sensin ∧ (writeBuffers s).spend = s.spend ∧ (writeBuffers s).seqr = s.seqr
    ∧ (writeBuffers s).timers = s.timers ∧ (writeBuffers s).interval = s.interval ∧ (writeBuffers s).est = s.est
    ∧ (writeBuffers s).interp = s.interp ∧ (writeBuffers s).comp = s.comp
    ∧ (writeBuffers s).out = (if s.comp.appv then { s.out with ocrbuf := mapBuffers (s.conf.mapAt s.comp.appstep) s } else s.out)
    ∧ (writeBuffers s).diag = s.diag ∧ (writeBuffers s).shadow = s.shadow := by
  unfold writeBuffers
  split <;> simp_all 

/-- Every field after `checkAlignment` (R138). -/
@[simp] theorem checkAlignment_fields (s : State) :
    (checkAlignment s).cfg = s.cfg ∧ (checkAlignment s).port = s.port ∧ (checkAlignment s).rdata = s.rdata
    ∧ (checkAlignment s).conf = s.conf ∧ (checkAlignment s).run = s.run ∧ (checkAlignment s).cfgflt = s.cfgflt
    ∧ (checkAlignment s).sensin = s.sensin ∧ (checkAlignment s).spend = s.spend ∧ (checkAlignment s).seqr = s.seqr
    ∧ (checkAlignment s).timers = s.timers ∧ (checkAlignment s).interval = s.interval ∧ (checkAlignment s).est = s.est
    ∧ (checkAlignment s).interp = s.interp ∧ (checkAlignment s).comp = s.comp ∧ (checkAlignment s).out = s.out
    ∧ (checkAlignment s).diag = (if drifted s.timers.pha then { s.diag with drift := true } else s.diag)
    ∧ (checkAlignment s).shadow = s.shadow := by
  unfold checkAlignment
  split <;> simp_all [recordError]

/-- Recording an error touches CFGFLT and the diagnostics alone (R300). -/
@[simp] theorem recordError_fields (e : ErrorCode) (s : State) :
    (recordError e s).cfg = s.cfg ∧ (recordError e s).port = s.port ∧ (recordError e s).rdata = s.rdata
    ∧ (recordError e s).conf = s.conf ∧ (recordError e s).run = s.run ∧ (recordError e s).sensin = s.sensin
    ∧ (recordError e s).spend = s.spend ∧ (recordError e s).seqr = s.seqr ∧ (recordError e s).timers = s.timers
    ∧ (recordError e s).interval = s.interval ∧ (recordError e s).est = s.est ∧ (recordError e s).interp = s.interp
    ∧ (recordError e s).comp = s.comp ∧ (recordError e s).out = s.out ∧ (recordError e s).shadow = s.shadow := by
  cases e <;> exact ⟨rfl, rfl, rfl, rfl, rfl, rfl, rfl, rfl, rfl, rfl, rfl, rfl, rfl, rfl, rfl⟩

/-- A read touches the shadows alone (R94). -/
@[simp] theorem snapshot_fields (r : Reg) (s : State) :
    (snapshot r s).cfg = s.cfg ∧ (snapshot r s).port = s.port ∧ (snapshot r s).rdata = s.rdata
    ∧ (snapshot r s).conf = s.conf ∧ (snapshot r s).run = s.run ∧ (snapshot r s).cfgflt = s.cfgflt
    ∧ (snapshot r s).sensin = s.sensin ∧ (snapshot r s).spend = s.spend ∧ (snapshot r s).seqr = s.seqr
    ∧ (snapshot r s).timers = s.timers ∧ (snapshot r s).interval = s.interval ∧ (snapshot r s).est = s.est
    ∧ (snapshot r s).interp = s.interp ∧ (snapshot r s).comp = s.comp ∧ (snapshot r s).out = s.out
    ∧ (snapshot r s).diag = s.diag := by
  cases r <;> exact ⟨rfl, rfl, rfl, rfl, rfl, rfl, rfl, rfl, rfl, rfl, rfl, rfl, rfl, rfl, rfl, rfl⟩

end Sys2Proof.Machine
end

