-- ==== Sys2Proof/Laws/Frames.lean ====
section
/-!
SUPPORT. What each service of the block leaves unchanged (R104, 20_memory.md, names what each writes): the compensator, the tick service,
the sensor service and one system clock.
-/

namespace Sys2Proof.Machine

/-! ### The compensator writes its own state and the outputs (R210) -/

/-- Arm changes only the compensator and the outputs (R210, R212). -/
@[simp] theorem arm_frame (p : StepIx) (s : State) :
    (arm p s).cfg = s.cfg ∧ (arm p s).port = s.port ∧ (arm p s).rdata = s.rdata ∧ (arm p s).conf = s.conf
    ∧ (arm p s).run = s.run ∧ (arm p s).cfgflt = s.cfgflt ∧ (arm p s).sensin = s.sensin ∧ (arm p s).spend = s.spend
    ∧ (arm p s).seqr = s.seqr ∧ (arm p s).timers = s.timers ∧ (arm p s).interval = s.interval ∧ (arm p s).est = s.est
    ∧ (arm p s).interp = s.interp ∧ (arm p s).diag = s.diag ∧ (arm p s).shadow = s.shadow := by
  unfold arm armDelay armAdvance
  split <;> split <;> simp

/-- The compensator tick changes only the compensator and the outputs (R210, R214). -/
@[simp] theorem compTick_frame (s : State) :
    (compTick s).cfg = s.cfg ∧ (compTick s).port = s.port ∧ (compTick s).rdata = s.rdata ∧ (compTick s).conf = s.conf
    ∧ (compTick s).run = s.run ∧ (compTick s).cfgflt = s.cfgflt ∧ (compTick s).sensin = s.sensin
    ∧ (compTick s).spend = s.spend ∧ (compTick s).seqr = s.seqr ∧ (compTick s).timers = s.timers
    ∧ (compTick s).interval = s.interval ∧ (compTick s).est = s.est ∧ (compTick s).interp = s.interp
    ∧ (compTick s).diag = s.diag ∧ (compTick s).shadow = s.shadow := by
  unfold compTick
  split
  · split <;> simp
  · simp

/-! ### The tick service (R104, R233) -/

/-- The tick service writes FP, OVR, DUTY, the outputs and the compensator, and nothing else (R104). -/
@[simp] theorem tickService_frame (s : State) :
    (tickService s).cfg = s.cfg ∧ (tickService s).port = s.port ∧ (tickService s).rdata = s.rdata
    ∧ (tickService s).conf = s.conf ∧ (tickService s).run = s.run ∧ (tickService s).cfgflt = s.cfgflt
    ∧ (tickService s).sensin = s.sensin ∧ (tickService s).spend = s.spend ∧ (tickService s).seqr = s.seqr
    ∧ (tickService s).timers = s.timers ∧ (tickService s).interval = s.interval ∧ (tickService s).est = s.est
    ∧ (tickService s).comp = (compTick s).comp ∧ (tickService s).diag = s.diag ∧ (tickService s).shadow = s.shadow := by
  simp [tickService]

/-- The interpolator after a tick: the duty of the position before the advance, and the advance (R233, R236). -/
@[simp] theorem tickService_interp (s : State) :
    (tickService s).interp = { fp := fpNext s.conf.fpmode s.interp.fp s.est.rate
                               ovr := s.interp.ovr || fpOverruns s.interp.fp s.est.rate
                               duty := tickDuty s } := by
  simp [tickService, tickDuty]

/-! ### The sensor service (R104, R163) -/

/-- Acquire leaves the estimator, the diagnostics and everything the host wrote (R165). -/
@[simp] theorem acquire_frame (j : StepIx) (s : State) :
    (acquire j s).cfg = s.cfg ∧ (acquire j s).port = s.port ∧ (acquire j s).rdata = s.rdata ∧ (acquire j s).conf = s.conf
    ∧ (acquire j s).run = s.run ∧ (acquire j s).cfgflt = s.cfgflt ∧ (acquire j s).sensin = s.sensin
    ∧ (acquire j s).spend = s.spend ∧ (acquire j s).timers = s.timers ∧ (acquire j s).est = s.est
    ∧ (acquire j s).diag = s.diag ∧ (acquire j s).shadow = s.shadow := by
  simp [acquire]

/-- Accept leaves the timers, the diagnostics and everything the host wrote (R166). -/
@[simp] theorem accept_frame (p : StepIx) (d : Direction) (s : State) :
    (accept p d s).cfg = s.cfg ∧ (accept p d s).port = s.port ∧ (accept p d s).rdata = s.rdata
    ∧ (accept p d s).conf = s.conf ∧ (accept p d s).run = s.run ∧ (accept p d s).cfgflt = s.cfgflt
    ∧ (accept p d s).sensin = s.sensin ∧ (accept p d s).spend = s.spend ∧ (accept p d s).timers = s.timers
    ∧ (accept p d s).diag = s.diag ∧ (accept p d s).shadow = s.shadow := by
  simp [accept]

/-- What an accepted transition writes beside the compensator and the outputs (R166). -/
@[simp] theorem accept_effect (p : StepIx) (d : Direction) (s : State) :
    (accept p d s).seqr = { s.seqr with pos := p, dir := d }
    ∧ (accept p d s).interval = { ovfcnt := 0, lastph := s.timers.pha, refv := true }
    ∧ (accept p d s).est = (if s.interval.refv then sampleOf (intervalTotal s) else s.est)
    ∧ (accept p d s).interp = { s.interp with fp := s.cfg.fpStart, ovr := false } := by
  simp [accept]

/-- The four ways a sensor service ends (R163, R164): an accepted transition, an acquisition, nothing, or a counted fault. -/
theorem sensorService_cases (s : State) :
    (s.seqr.pv = true ∧ s.sensin = forwardCode s
      ∧ sensorService s = accept (stepForward s.conf.seqlen s.seqr.pos) .forward s)
    ∨ (s.seqr.pv = true ∧ s.sensin ≠ forwardCode s ∧ s.sensin = reverseCode s
      ∧ sensorService s = accept (stepReverse s.conf.seqlen s.seqr.pos) .reverse s)
    ∨ (s.seqr.pv = true ∧ s.sensin ≠ forwardCode s ∧ s.sensin ≠ reverseCode s ∧ s.sensin = currentCode s
      ∧ sensorService s = s)
    ∨ (∃ j, s.seqr.pv = false ∧ s.conf.findStep s.sensin = some j ∧ sensorService s = acquire j s)
    ∨ sensorService s = recordError .sensor s := by
  unfold sensorService servicePlaced serviceUnplaced
  cases hpv : s.seqr.pv with
  | false => cases hf : s.conf.findStep s.sensin <;> simp
  | true => split_ifs <;> simp_all

/-- The sensor service never touches the timers, the configuration, RUN or the latch (R104, R163, R167). -/
@[simp] theorem sensorService_frame (s : State) :
    (sensorService s).cfg = s.cfg ∧ (sensorService s).port = s.port ∧ (sensorService s).rdata = s.rdata
    ∧ (sensorService s).conf = s.conf ∧ (sensorService s).run = s.run ∧ (sensorService s).cfgflt = s.cfgflt
    ∧ (sensorService s).sensin = s.sensin ∧ (sensorService s).spend = s.spend ∧ (sensorService s).timers = s.timers
    ∧ (sensorService s).shadow = s.shadow := by
  obtain ⟨-, -, h⟩ | ⟨-, -, -, h⟩ | ⟨-, -, -, -, h⟩ | ⟨j, -, -, h⟩ | h := sensorService_cases s <;>
    simp [h, recordError]

/-! ### One system clock (R131) -/

/-- Every field after the timers and the overflow count (R131, R143). -/
@[simp] theorem clockCount_fields (s : State) :
    (clockCount s).cfg = s.cfg ∧ (clockCount s).port = s.port ∧ (clockCount s).rdata = s.rdata
    ∧ (clockCount s).conf = s.conf ∧ (clockCount s).run = s.run ∧ (clockCount s).cfgflt = s.cfgflt
    ∧ (clockCount s).sensin = s.sensin ∧ (clockCount s).spend = s.spend ∧ (clockCount s).seqr = s.seqr
    ∧ (clockCount s).timers = s.timers.clock (divisorA s) ∧ (clockCount s).est = s.est
    ∧ (clockCount s).interp = s.interp ∧ (clockCount s).comp = s.comp ∧ (clockCount s).diag = s.diag
    ∧ (clockCount s).shadow = s.shadow
    ∧ (clockCount s).out = s.out.load (topsA (divisorA s) s.timers) (topsB (divisorA s) s.timers)
    ∧ (clockCount s).interval
        = { s.interval with ovfcnt := (if ticks s then satInc16 s.interval.ovfcnt else s.interval.ovfcnt) } := by
  unfold clockCount
  split_ifs <;> simp_all

/-- What the timers and the tick leave, and the overflow count and the alignment check (R131, R138, R143). -/
@[simp] theorem clockTick_fields (s : State) :
    (clockTick s).cfg = s.cfg ∧ (clockTick s).port = s.port ∧ (clockTick s).rdata = s.rdata
    ∧ (clockTick s).conf = s.conf ∧ (clockTick s).run = s.run ∧ (clockTick s).cfgflt = s.cfgflt
    ∧ (clockTick s).sensin = s.sensin ∧ (clockTick s).spend = s.spend ∧ (clockTick s).seqr = s.seqr
    ∧ (clockTick s).timers = s.timers.clock (divisorA s) ∧ (clockTick s).est = s.est
    ∧ (clockTick s).shadow = s.shadow
    ∧ (clockTick s).interval
        = { s.interval with ovfcnt := (if ticks s then satInc16 s.interval.ovfcnt else s.interval.ovfcnt) }
    ∧ (clockTick s).diag = { s.diag with drift := (s.diag.drift
        || (overflowsB (divisorA s) s.timers && drifted (s.timers.clock (divisorA s)).pha)) } := by
  unfold clockTick clockCheck
  split_ifs <;> simp_all
  all_goals split_ifs <;> simp_all

/-- A system clock of a running block never touches the parameters, the configuration, RUN, CFGFLT, SENSIN or the shadows, and
clears the latch (R131). -/
@[simp] theorem clockRunning_frame (s : State) :
    (clockRunning s).cfg = s.cfg ∧ (clockRunning s).port = s.port ∧ (clockRunning s).rdata = s.rdata
    ∧ (clockRunning s).conf = s.conf ∧ (clockRunning s).run = s.run ∧ (clockRunning s).cfgflt = s.cfgflt
    ∧ (clockRunning s).sensin = s.sensin ∧ (clockRunning s).spend = false
    ∧ (clockRunning s).timers = s.timers.clock (divisorA s) ∧ (clockRunning s).shadow = s.shadow := by
  unfold clockRunning serviceSensor
  split_ifs <;> simp_all

end Sys2Proof.Machine
end

