-- ==== Sys2Proof/Laws/Values.lean ====
section
/-!
SUPPORT. The small laws of the value computations: bounds of phases, counters, steps and rates, what a lookup finds, and when a compare
buffer is 0.
-/

namespace Sys2Proof.Machine

/-! ### Phases and counters -/

/-- A phase step stays in 0..509 (R134). -/
theorem nextPhase_lt (p : Phase) : (nextPhase p).toNat < period := by
  simp only [nextPhase, BitVec.toNat_ofNat, period]
  omega

/-- The phase after one step, as a number (R131). -/
theorem nextPhase_toNat (p : Phase) : (nextPhase p).toNat = (p.toNat + 1) % period := by
  simp only [nextPhase, BitVec.toNat_ofNat, period]
  omega

/-- A phase step that does not reach BOTTOM moves up by one (R134). -/
theorem nextPhase_succ {p : Phase} (hp : p.toNat < period) (h : isBottom (nextPhase p) = false) :
    (nextPhase p).toNat = p.toNat + 1 := by
  have hn : (nextPhase p).toNat ≠ 0 := by
    intro h0
    have : nextPhase p = 0 := BitVec.eq_of_toNat_eq (by simpa using h0)
    simp [isBottom, this] at h
  have h2 := nextPhase_toNat p
  by_cases hlt : p.toNat + 1 < period
  · rw [h2, Nat.mod_eq_of_lt hlt]
  · have : p.toNat + 1 = period := by omega
    rw [this, Nat.mod_self] at h2
    exact absurd h2 hn

/-- The prescaler counter stays below its divisor (R133). -/
theorem pscNext_lt {p : Nat} {psc : BitVec 10} (hp : p ≤ 1024) (h : psc.toNat < p) : (pscNext (some p) psc).toNat < p := by
  unfold pscNext pscWraps
  split_ifs with hw
  · simp; omega
  · simp only [decide_eq_true_eq, Option.some.injEq] at hw
    rw [BitVec.toNat_add, show (1 : BitVec 10).toNat = 1 from rfl]
    omega

/-- The saturating count never becomes 0 (R143). -/
theorem satInc16_ne_zero (v : BitVec 16) : satInc16 v ≠ 0 := by
  intro h
  have := congrArg BitVec.toNat h
  simp only [satInc16, BitVec.toNat_ofNat, show (0 : BitVec 16).toNat = 0 from rfl] at this
  omega

/-- The saturating count as a number (R143). -/
theorem satInc16_toNat (v : BitVec 16) : (satInc16 v).toNat = min (v.toNat + 1) 0xFFFF := by
  simp only [satInc16, BitVec.toNat_ofNat]
  omega

/-- The saturating sensor-fault count as a number (R51). -/
theorem satInc8_toNat (v : Byte) : (satInc8 v).toNat = min (v.toNat + 1) 0xFF := by
  simp only [satInc8, BitVec.toNat_ofNat]
  omega

/-! ### Steps and lookups -/

/-- The forward neighbour, as a number, in a valid length (R163). -/
theorem stepForward_toNat {n : Byte} (hn : 3 ≤ n.toNat) (hn' : n.toNat ≤ 16) (p : StepIx) :
    (stepForward n p).toNat = (p.toNat + 1) % n.toNat := by
  have : (p.toNat + 1) % n.toNat < n.toNat := Nat.mod_lt _ (by omega)
  simp only [stepForward, BitVec.toNat_ofNat]
  omega

/-- The reverse neighbour, as a number, in a valid length (R163). -/
theorem stepReverse_toNat {n : Byte} (hn : 3 ≤ n.toNat) (hn' : n.toNat ≤ 16) (p : StepIx) :
    (stepReverse n p).toNat = (p.toNat + n.toNat - 1) % n.toNat := by
  have : (p.toNat + n.toNat - 1) % n.toNat < n.toNat := Nat.mod_lt _ (by omega)
  simp only [stepReverse, BitVec.toNat_ofNat]
  omega

/-- A neighbour lies below SEQLEN (R163). -/
theorem stepForward_lt {n : Byte} (hn : 3 ≤ n.toNat) (hn' : n.toNat ≤ 16) (p : StepIx) :
    (stepForward n p).toNat < n.toNat := by
  rw [stepForward_toNat hn hn']
  exact Nat.mod_lt _ (by omega)

/-- A neighbour lies below SEQLEN (R163). -/
theorem stepReverse_lt {n : Byte} (hn : 3 ≤ n.toNat) (hn' : n.toNat ≤ 16) (p : StepIx) :
    (stepReverse n p).toNat < n.toNat := by
  rw [stepReverse_toNat hn hn']
  exact Nat.mod_lt _ (by omega)

/-- A lookup finds an index below SEQLEN whose entry is the code (R163, R270). -/
theorem findStep_some {c : Conf} {code : Byte} {j : StepIx} (h : c.findStep code = some j) :
    j.toNat < c.seqlen.toNat ∧ c.seqAt j = code := by
  simp only [Conf.findStep, Option.map_eq_some_iff] at h
  obtain ⟨k, hk, rfl⟩ := h
  rw [List.findIdx?_eq_some_iff_getElem] at hk
  obtain ⟨hlt, hcode, -⟩ := hk
  simp only [Conf.entries, List.length_take, Vector.length_toList] at hlt
  have hk16 : k < 16 := by omega
  have hk' : (BitVec.ofNat 4 k).toNat = k := by simp; omega
  refine ⟨by omega, ?_⟩
  simp only [beq_iff_eq, Conf.entries, List.getElem_take, Vector.getElem_toList] at hcode
  simp only [Conf.seqAt, hk', hcode]

/-- A lookup fails exactly when no entry of the sequence is the code (R163, R270). -/
theorem findStep_none {c : Conf} {code : Byte} (h : c.findStep code = none) (j : StepIx)
    (hj : j.toNat < c.seqlen.toNat) : c.seqAt j ≠ code := by
  simp only [Conf.findStep, Option.map_eq_none_iff, List.findIdx?_eq_none_iff] at h
  intro hc
  have hj16 := j.isLt
  have hmem : c.seqAt j ∈ c.entries := by
    simp only [Conf.entries, Conf.seqAt, List.mem_take_iff_getElem, Vector.length_toList, Vector.getElem_toList]
    exact ⟨j.toNat, by omega, rfl⟩
  simpa [hc] using h _ hmem

/-- A code has one place in a valid configuration (R163, R265). -/
theorem seqAt_injective {s : State} (h : cfgValid s = true) {i j : StepIx} (hi : i.toNat < s.conf.seqlen.toNat)
    (hj : j.toNat < s.conf.seqlen.toNat) (he : s.conf.seqAt i = s.conf.seqAt j) : i = j := by
  simp only [cfgValid, confValid, Bool.and_eq_true, Conf.distinct, decide_eq_true_eq] at h
  have hi16 := i.isLt
  have hj16 := j.isLt
  have hn := (List.Nodup.getElem_inj_iff h.1.2 (i := i.toNat) (j := j.toNat) (hi := by simp [Conf.entries]; omega)
    (hj := by simp [Conf.entries]; omega)).1
  exact BitVec.eq_of_toNat_eq (hn (by simpa [Conf.entries, Conf.seqAt] using he))

/-- The two neighbours of a step differ, since SEQLEN is at least 3 (R163). -/
theorem stepForward_ne_stepReverse {n : Byte} (h : 3 ≤ n.toNat) (h' : n.toNat ≤ 16) {p : StepIx} (hp : p.toNat < n.toNat) :
    stepForward n p ≠ stepReverse n p := by
  intro e
  have e0 := congrArg BitVec.toNat e
  rw [stepForward_toNat h h', stepReverse_toNat h h'] at e0
  have e1 : (p.toNat + 1) % n.toNat = if p.toNat + 1 = n.toNat then 0 else p.toNat + 1 := by
    split_ifs with q
    · rw [q, Nat.mod_self]
    · exact Nat.mod_eq_of_lt (by omega)
  have e2 : (p.toNat + n.toNat - 1) % n.toNat = if p.toNat = 0 then n.toNat - 1 else p.toNat - 1 := by
    split_ifs with q
    · rw [q, Nat.zero_add, Nat.mod_eq_of_lt (by omega)]
    · rw [show p.toNat + n.toNat - 1 = p.toNat - 1 + n.toNat by omega, Nat.add_mod_right, Nat.mod_eq_of_lt (by omega)]
  rw [e1, e2] at e0
  split_ifs at e0 <;> omega

/-- The check does not read PWMMAX (R265). -/
@[simp] theorem confValid_pwmmax (cfg : Config) (c : Conf) (d : Byte) :
    confValid cfg { c with pwmmax := d } = confValid cfg c := rfl

/-- The bounds a valid configuration gives SEQLEN and ALIGN (R265). -/
theorem cfgValid_bounds {s : State} (h : cfgValid s = true) :
    3 ≤ s.conf.seqlen.toNat ∧ s.conf.seqlen.toNat ≤ 16 ∧ s.conf.align.toNat ≤ 509 := by
  simp only [cfgValid, confValid, Bool.and_eq_true, decide_eq_true_eq] at h
  exact ⟨h.1.1.1.2, h.1.1.2, h.2⟩

/-- A divisor of parameters a model may be built with lies in 1 to 1024 (I8, log 5). -/
theorem divisorA_bounds {s : State} (h : s.cfg.wf = true) {p : Nat} (hp : divisorA s = some p) : 1 ≤ p ∧ p ≤ 1024 := by
  simp only [Config.wf, Bool.and_eq_true, List.all_eq_true] at h
  have := h.1.1 (some p) (by rw [← hp]; simp [divisorA, classDivisor])
  simpa [Config.divisorOk] using this

/-! ### Bytes of a value -/

/-- The low byte of a 9-bit value, as a number (R91). -/
theorem lo9_eq (v : BitVec 9) : lo9 v = .ofNat 8 (v.toNat % 256) := by
  apply BitVec.eq_of_toNat_eq
  simp [lo9]

/-- The high byte of a 9-bit value, as a number (R69). -/
theorem hi9_eq (v : BitVec 9) : hi9 v = .ofNat 8 (v.toNat / 256) := by
  apply BitVec.eq_of_toNat_eq
  have := v.isLt
  simp [hi9, Nat.shiftRight_eq_div_pow]
  omega

/-- The low byte of a 16-bit value, as a number (R91). -/
theorem lo16_eq (v : BitVec 16) : lo16 v = .ofNat 8 (v.toNat % 256) := by
  apply BitVec.eq_of_toNat_eq
  simp [lo16]

/-- The high byte of a 16-bit value, as a number (R91). -/
theorem hi16_eq (v : BitVec 16) : hi16 v = .ofNat 8 (v.toNat / 256) := by
  apply BitVec.eq_of_toNat_eq
  simp [hi16, Nat.shiftRight_eq_div_pow]

/-- What SH_IV holds, as a number (R52). -/
theorem ivHigh_eq (e : Estimator) : ivHigh e = .ofNat 24 (e.ifine.toNat * 256 + e.ic.toNat / 256) := by
  have hf := e.ifine.isLt
  have hc := e.ic.isLt
  have h : ivHigh e = ((hi9 e.ifine ++ lo9 e.ifine : BitVec 16) ++ hi16 e.ic : BitVec 24) := rfl
  apply BitVec.eq_of_toNat_eq
  rw [h, BitVec.toNat_append, BitVec.toNat_append, ← Nat.shiftLeft_add_eq_or_of_lt (by exact (hi16 e.ic).isLt),
    ← Nat.shiftLeft_add_eq_or_of_lt (by exact (lo9 e.ifine).isLt), hi9_eq, lo9_eq, hi16_eq]
  simp only [BitVec.toNat_ofNat, Nat.shiftLeft_eq]
  omega

/-! ### Rates -/

/-- The rate is never 0 for an interval the block can measure (R192). -/
theorem rateOf_ne_zero {total : Nat} (h : total ≤ span * period) : rateOf total ≠ 0 := by
  unfold rateOf
  split_ifs with h0
  · decide
  · intro hz
    have := congrArg BitVec.toNat hz
    have h1 : 1 ≤ span * period / total := (Nat.one_le_div_iff (by omega)).2 h
    simp only [BitVec.toNat_ofNat, show (0 : BitVec 16).toNat = 0 from rfl] at this
    omega

/-- The rate as a number (R192). -/
theorem rateOf_toNat {total : Nat} (h : total ≠ 0) : (rateOf total).toNat = min 0xFFFF (span * period / total) := by
  unfold rateOf
  rw [if_neg h, BitVec.toNat_ofNat]
  exact Nat.mod_eq_of_lt (by omega)

/-! ### Compare values -/

/-- While IVALID = 0 and DUTY = 0 every mode gives compare value 0 (R216, R218). -/
theorem chanVal_cold {s : State} (hd : s.interp.duty = 0) (hi : s.est.ivalid = false) (m : ChanMode) : chanVal m s = 0 := by
  cases m <;> simp [chanVal, hd, hi]

/-- While IVALID = 0 and DUTY = 0 every map gives zero buffers (R218). -/
theorem mapBuffers_cold {s : State} (hd : s.interp.duty = 0) (hi : s.est.ivalid = false) (map : Byte) :
    mapBuffers map s = .replicate 4 0 := by
  ext c hc
  simp [mapBuffers, chanVal_cold hd hi]

/-- The buffers of a map depend only on DUTY and IVALID (R216). -/
theorem mapBuffers_congr {s t : State} (hd : s.interp.duty = t.interp.duty) (hi : s.est.ivalid = t.est.ivalid) (map : Byte) :
    mapBuffers map s = mapBuffers map t := by
  have h : ∀ m, chanVal m s = chanVal m t := by intro m; cases m <;> simp [chanVal, hd, hi]
  simp [mapBuffers, h]

/-- Compare values that are all 0 stay all 0 at TOP (R136). -/
theorem load_zero {o : Outputs} (h : o.ocr = .replicate 4 0) (hb : o.ocrbuf = .replicate 4 0) (a b : Bool) :
    (o.load a b).ocr = .replicate 4 0 := by
  ext c hc
  simp [Outputs.load, h, hb]

/-- A block whose outputs are all off stays so at TOP (R136). -/
theorem load_allOff (a b : Bool) : Outputs.allOff.load a b = Outputs.allOff := by
  simp only [Outputs.load, Outputs.allOff, Outputs.mk.injEq, and_true]
  ext c hc
  simp

/-- The duty never exceeds the amplitude (R234). -/
theorem dutyOf_le (a e : Byte) : (dutyOf a e).toNat ≤ a.toNat := by
  have he := e.isLt
  have ha := a.isLt
  have : (a.toNat * e.toNat + 127) / 255 ≤ a.toNat := by
    have : a.toNat * e.toNat ≤ a.toNat * 255 := Nat.mul_le_mul_left _ (by omega)
    omega
  simp only [dutyOf, BitVec.toNat_ofNat]
  omega

/-- The duty as a number: the rounding fits 8 bits (R234). -/
theorem dutyOf_toNat (a e : Byte) : (dutyOf a e).toNat = (a.toNat * e.toNat + 127) / 255 := by
  have he := e.isLt
  have ha := a.isLt
  have : (a.toNat * e.toNat + 127) / 255 ≤ a.toNat := by
    have : a.toNat * e.toNat ≤ a.toNat * 255 := Nat.mul_le_mul_left _ (by omega)
    omega
  simp only [dutyOf, BitVec.toNat_ofNat]
  omega

end Sys2Proof.Machine
end

