-- ==== Sys2Proof/Laws/Invariant.lean ====
section
/-!
SUPPORT. What each shared operation needs to keep the invariant of Safety.lean. The steps themselves are not taken here.
-/

namespace Sys2Proof.Machine

/-- The invariant reads only the fields named here. -/
theorem Inv.of_same {s t : State} (h : Inv s) (hcfg : t.cfg = s.cfg) (hconf : t.conf = s.conf) (hrun : t.run = s.run)
    (hflt : t.cfgflt = s.cfgflt) (hspend : t.spend = true → s.spend = true ∨ s.run = true) (hseqr : t.seqr = s.seqr)
    (htimers : t.timers = s.timers) (hint : t.interval = s.interval) (hest : t.est = s.est)
    (hduty : t.interp.duty = s.interp.duty) (hcomp : t.comp = s.comp) (hout : t.out = s.out) : Inv t := by
  obtain ⟨a, b, c, d, e, f, g, i, j, k, l, m, n⟩ := h
  simp only [cfgValid, divisorA, OutputsOff, ZeroOutput, FollowsMap] at *
  constructor <;> simp only [hcfg, hconf, hrun, hflt, hseqr, htimers, hint, hest, hduty, hcomp, hout, cfgValid, divisorA,
    OutputsOff, ZeroOutput, FollowsMap] <;> try assumption
  exact fun h => (hspend h).elim f id

/-- Applying the map of a step below SEQLEN keeps the invariant (R215). -/
theorem applyMap_inv {s : State} (h : Inv s) (hr : s.run = true) {p} (hp : p.toNat < s.conf.seqlen.toNat) : Inv (applyMap p s) := by
  obtain ⟨a, b, c, d, e, f, g, i, j, k, l, m, n⟩ := h
  constructor <;> simp_all [cfgValid, divisorA, FollowsMap, OutputsOff, ZeroOutput, mapBuffers_cold]

/-- Cancelling a schedule keeps it (R217). -/
theorem cancelSchedule_inv {s : State} (h : Inv s) : Inv (cancelSchedule s) := by
  obtain ⟨a, b, c, d, e, f, g, i, j, k, l, m, n⟩ := h
  constructor <;> simp_all [cfgValid, divisorA, FollowsMap, OutputsOff, ZeroOutput]

/-- Scheduling a remap of a step below SEQLEN, at least one tick ahead, keeps it (R212). -/
theorem schedule_inv {s : State} (h : Inv s) (hr : s.run = true) {p k} (hp : p.toNat < s.conf.seqlen.toNat) (hk : k ≠ 0) :
    Inv (schedule p k s) := by
  obtain ⟨a, b, c, d, e, f, g, i, j, k, l, m, n⟩ := h
  constructor <;> simp_all [cfgValid, divisorA, FollowsMap, OutputsOff, ZeroOutput]

/-- Arm keeps it: a prediction is always at least one tick ahead (R212, R213). -/
theorem arm_inv {s : State} (h : Inv s) (hr : s.run = true) {p} (hp : p.toNat < s.conf.seqlen.toNat) : Inv (arm p s) := by
  have hc := cancelSchedule_inv h
  have hv := cfgValid_bounds (h.valid hr).1
  unfold arm armDelay armAdvance
  split
  · split_ifs with hz
    · exact applyMap_inv hc (by simpa) (by simpa)
    · refine schedule_inv hc (by simpa) (by simpa) ?_
      intro h0
      apply hz
      have := congrArg BitVec.toNat h0
      apply BitVec.eq_of_toNat_eq
      have := s.conf.phofs.isLt
      simp at *
      omega
  · have ha := applyMap_inv hc (by simpa) (p := p) (by simpa)
    split_ifs with hz
    · refine schedule_inv ha (by simpa) ?_ ?_
      · simp only [nextStep]
        split
        · exact stepForward_lt hv.1 hv.2.1 p
        · exact stepReverse_lt hv.1 hv.2.1 p
      · simp [predictable, leadTicks] at hz ⊢
        intro h0
        have := congrArg BitVec.toNat h0
        have h1 := s.est.ic.isLt
        simp at this
        omega
    · exact ha

/-- A compensator tick keeps it (R214). -/
theorem compTick_inv {s : State} (h : Inv s) : Inv (compTick s) := by
  unfold compTick
  split_ifs with hp h0
  · have hs := h.scheduled hp
    unfold fireSchedule
    apply applyMap_inv
    · obtain ⟨a, b, c, d, e, f, g, i, j, k, l, m, n⟩ := h
      constructor <;> simp_all [cfgValid, divisorA, FollowsMap, OutputsOff, ZeroOutput]
    · simpa using hs.1
    · simpa using hs.2.2
  · obtain ⟨a, b, c, d, e, f, g, i, j, k, l, m, n⟩ := h
    constructor <;> simp_all [cfgValid, divisorA, FollowsMap, OutputsOff, ZeroOutput]
  · exact h

/-- The tick service keeps it (R233, R235, R237). -/
theorem tickService_inv {s : State} (h : Inv s) (hr : s.run = true) : Inv (tickService s) := by
  have h := compTick_inv h
  have hr : (compTick s).run = true := by simpa
  unfold tickService
  generalize compTick s = u at *
  obtain ⟨a, b, c, d, e, f, g, i, j, k, l, m, n⟩ := h
  constructor <;> simp only [writeBuffers_fields, advanceFp_fields, setDuty_fields, cfgValid, divisorA, FollowsMap, OutputsOff,
    ZeroOutput] at * <;> try assumption
  · intro hi
    have := k hi
    refine ⟨by simp [tickDuty, hi], ?_, ?_⟩ <;> split_ifs <;> simp [this]
    exact mapBuffers_cold (by simp [tickDuty, hi]) (by simpa using hi) _
  · simp [hr]
  · intro ha
    simp [ha, m ha]
  · intro _ ha
    simpa [ha] using n hr ha

/-- The interval of a state that meets the invariant is one the rate formula covers (R190, R192). -/
theorem intervalTotal_le {s : State} (h : Inv s) : intervalTotal s ≤ span * period := by
  have := h.phases.1
  have h2 := s.interval.ovfcnt.isLt
  simp [intervalTotal, span, period] at *
  omega

/-- Recording a sample keeps it (R191, R192). -/
theorem recordSample_inv {s : State} (h : Inv s) (hr : s.run = true) : Inv (recordSample s) := by
  have ht := rateOf_ne_zero (intervalTotal_le h)
  have hm : (intervalTotal s) % period < period := Nat.mod_lt _ (by decide)
  unfold recordSample
  split_ifs with hv
  · obtain ⟨a, b, c, d, e, f, g, i, j, k, l, m, n⟩ := h
    constructor <;> simp_all [cfgValid, divisorA, FollowsMap, OutputsOff, ZeroOutput, sampleOf]
    omega
  · exact h

/-- A new reference point keeps it (R36). -/
theorem setReference_inv {s : State} (h : Inv s) (e) : Inv (setReference e s) := by
  obtain ⟨a, b, c, d, e, f, g, i, j, k, l, m, n⟩ := h
  constructor <;> simp_all [cfgValid, divisorA, FollowsMap, OutputsOff, ZeroOutput]

/-- Resynchronizing the interpolator keeps it. -/
theorem resyncFp_inv {s : State} (h : Inv s) : Inv (resyncFp s) := by
  obtain ⟨a, b, c, d, e, f, g, i, j, k, l, m, n⟩ := h
  constructor <;> simp_all [cfgValid, divisorA, FollowsMap, OutputsOff, ZeroOutput]

/-- Moving to a step below SEQLEN keeps it (R166). -/
theorem moveTo_inv {s : State} (h : Inv s) {p d} (hp : p.toNat < s.conf.seqlen.toNat) : Inv (moveTo p d s) := by
  obtain ⟨a, b, c, d, e, f, g, i, j, k, l, m, n⟩ := h
  constructor <;> simp_all [cfgValid, divisorA, FollowsMap, OutputsOff, ZeroOutput]

/-- Taking a position below SEQLEN keeps it (R165, R270). -/
theorem placeAt_inv {s : State} (h : Inv s) {p} (hp : p.toNat < s.conf.seqlen.toNat) : Inv (placeAt p s) := by
  obtain ⟨a, b, c, d, e, f, g, i, j, k, l, m, n⟩ := h
  constructor <;> simp_all [cfgValid, divisorA, FollowsMap, OutputsOff, ZeroOutput]

/-- Accept keeps it (R166). -/
theorem accept_inv {s : State} (h : Inv s) (hr : s.run = true) {p d} (hp : p.toNat < s.conf.seqlen.toNat) : Inv (accept p d s) := by
  unfold accept
  apply arm_inv _ (by simpa) (by simpa)
  apply resyncFp_inv
  exact moveTo_inv (setReference_inv (recordSample_inv h hr) _) (by simpa)

/-- Acquire keeps it (R165). -/
theorem acquire_inv {s : State} (h : Inv s) (hr : s.run = true) {p} (hp : p.toNat < s.conf.seqlen.toNat) : Inv (acquire p s) := by
  unfold acquire
  exact applyMap_inv (cancelSchedule_inv (resyncFp_inv (setReference_inv (placeAt_inv h hp) _))) (by simpa) (by simpa)

/-- Recording any error but the configuration fault keeps it (R300). -/
theorem recordError_inv {s : State} (h : Inv s) {e} (he : e ≠ .config) : Inv (recordError e s) := by
  apply Inv.of_same h <;> cases e <;> simp [recordError] at *
  all_goals tauto

/-- The sensor service keeps it (R163). -/
theorem sensorService_inv {s : State} (h : Inv s) (hr : s.run = true) : Inv (sensorService s) := by
  have hv := cfgValid_bounds (h.valid hr).1
  obtain ⟨-, -, e⟩ | ⟨-, -, -, e⟩ | ⟨-, -, -, -, e⟩ | ⟨j, -, hj, e⟩ | e := sensorService_cases s <;> rw [e]
  · exact accept_inv h hr (stepForward_lt hv.1 hv.2.1 _)
  · exact accept_inv h hr (stepReverse_lt hv.1 hv.2.1 _)
  · exact h
  · exact acquire_inv h hr (findStep_some hj).1
  · exact recordError_inv h (by simp)

/-- The timers and the overflow count keep it (R131, R143). -/
theorem clockCount_inv {s : State} (h : Inv s) (hr : s.run = true) : Inv (clockCount s) := by
  have hwf := h.params
  have hA : ∀ p, divisorA s = some p → p ≤ 1024 := fun p hp => (divisorA_bounds hwf hp).2
  have hp := h.phases
  have key : (if ticks s then satInc16 s.interval.ovfcnt else s.interval.ovfcnt) = 0
      → s.interval.lastph.toNat ≤ (s.timers.clock (divisorA s)).pha.toNat := by
    intro h0
    split_ifs at h0 with ht
    · exact absurd h0 (satInc16_ne_zero _)
    · have h1 := h.reference h0
      simp only [ticks, overflowsA, Timers.clock] at ht ⊢
      by_cases ha : advancesA (divisorA s) s.timers = true
      · simp only [ha, if_true, Bool.true_and] at ht ⊢
        rw [nextPhase_succ hp.1 (by simpa using ht)]
        omega
      · simpa [ha] using h1
  obtain ⟨a, b, c, d, e, f, g, i, j, k, l, m, n⟩ := h
  have e2 := e hr
  constructor <;> simp only [clockCount_fields, cfgValid, divisorA, FollowsMap, OutputsOff, ZeroOutput] at * <;> try assumption
  · simp only [Timers.clock]
    refine ⟨?_, ?_, hp.2.2⟩ <;> split_ifs <;> simp [nextPhase_lt, hp]
  · intro _ p hd
    have h3 := e2 p hd
    have := hA p hd
    have x1 := pscNext_lt this h3.1
    have x2 := pscNext_lt this h3.2
    simp only [Timers.clock, hd]
    refine ⟨x1, ?_⟩
    split_ifs <;> simp [x2, h3]
  · intro hi
    have := k hi
    exact ⟨this.1, load_zero this.2.1 this.2.2 _ _, this.2.2⟩
  · simp [hr]
  · intro hi
    rw [m hi, load_allOff]

/-- The alignment check keeps it (R138). -/
theorem checkAlignment_inv {s : State} (h : Inv s) : Inv (checkAlignment s) := by
  unfold checkAlignment
  split_ifs
  · exact recordError_inv h (by simp)
  · exact h

end Sys2Proof.Machine
end

