-- ==== Sys2Proof/Laws/PerInstr.lean ====
section
/-!
SUPPORT. What holds of every operation as syntax, one lemma for each constructor: it is well formed, and its word is of its own row of the
opcode map, whose mask and match bits are the spec's (R118).
-/

namespace Sys2Proof.Laws.EncodesInTable

/-- The operation is well formed, and its word matches its own row of the opcode map (R118). -/
def Statement (i : Instr) : Prop :=
  i.wellFormed = true ∧ opRow i ∈ opcodeMap ∧ (opRow i).matchesWord (encode i) = true

/-- WR: only the class bits are fixed (R113). -/
theorem wr (addr : RegAddr) (data : Byte) : Statement (.wr addr data) := by
  have h : encodeWrite addr data &&& 0xC000 = 0 := by
    apply BitVec.eq_of_getLsbD_eq
    intro i hi
    have hm : (0xC000 : OpWord).getLsbD i = (decide (i = 14) || decide (i = 15)) := by revert i; decide
    simp only [BitVec.getLsbD_and, hm, encodeWrite]
    simp
    grind
  exact ⟨rfl, .head _, decide_eq_true h⟩

/-- RD: the class bits and the low byte are fixed (R114). -/
theorem rd (addr : RegAddr) : Statement (.rd addr) :=
  ⟨rfl, .tail _ (.head _), by revert addr; decide⟩

/-- NOP: every bit is fixed (R115). -/
theorem nop : Statement .nop := by unfold Statement; decide

/-- START: every bit is fixed (R115). -/
theorem start : Statement .start := by unfold Statement; decide

/-- STOP: every bit is fixed (R115). -/
theorem stop : Statement .stop := by unfold Statement; decide

/-- CLRDIAG: every bit is fixed (R115). -/
theorem clrdiag : Statement .clrdiag := by unfold Statement; decide

/-- EVT_SYSCLK: every bit is fixed (R116). -/
theorem evtSysclk : Statement .evtSysclk := by unfold Statement; decide

/-- EVT_SENSOR: the high byte is fixed (R116). -/
theorem evtSensor (code : Byte) : Statement (.evtSensor code) :=
  ⟨rfl, by decide +revert, by revert code; decide +kernel⟩

/-- EVT_RESET: every bit is fixed (R116). -/
theorem evtReset : Statement .evtReset := by unfold Statement; decide

end Sys2Proof.Laws.EncodesInTable
end

