-- ==== Sys2Proof/Laws/Steps.lean ====
section
/-!
SUPPORT. What one delivered word and one system clock come to, said once: the word taken from the port (R260), the running and the stopped
clock (R131, R144), the timers as numbers (R133 to R137), and the outputs after a tick and after a service (R136, R214, R215, R237).
-/

namespace Sys2Proof.Machine

/-! ### Delivering a word (R260) -/

/-- Delivering a word runs it at the state it is delivered to. -/
theorem deliver_eq (w : OpWord) (s : State) : deliver w s = execWord w s := rfl

/-- A delivered word that decodes runs its operation. -/
theorem deliver_decoded {w : OpWord} {i : Instr} (h : decode w = some i) (s : State) : deliver w s = exec i s := by
  simp [deliver_eq, execWord, h]

/-- A delivered word that is reserved has the effect of R112. -/
theorem deliver_reserved {w : OpWord} (h : decode w = none) (s : State) : deliver w s = takeReserved s := by
  simp [deliver_eq, execWord, h]

/-- The state a delivered word leads to (R314: there is always one). -/
def after (w : OpWord) (s : State) : State :=
  match decode w with
  | none => { s with rdata := none, diag.illop := true }
  | some (.wr a d) => { writeReg (regAt a) d s with rdata := none }
  | some (.rd a) => { snapshot (regAt a) s with rdata := some (regValue (regAt a) s) }
  | some .nop => { s with rdata := none }
  | some .start => { startBlock s with rdata := none }
  | some .stop => { stopBlock s with rdata := none }
  | some .clrdiag => { clearDiag s with rdata := none }
  | some .evtSysclk => { (if s.run then clockRunning s else s) with rdata := none }
  | some (.evtSensor code) => { latchSensor code s with rdata := none }
  | some .evtReset => State.atReset s.cfg s.port

/-- Every delivered word leads to a next state (R314). -/
theorem deliver_next (w : OpWord) (s : State) : deliver w s = .next (after w s) := by
  rw [deliver_eq]
  unfold execWord after
  cases decode w with
  | none => rfl
  | some i => cases i <;> rfl

/-- A run of one word more. -/
@[simp] theorem runWords_cons (w : OpWord) (ws : List OpWord) (s : State) :
    runWords (w :: ws) s = (runWords ws (after w s)).map fun r => (r.1, (after w s).rdata.toList ++ r.2) := by
  simp [runWords, deliver_next]

/-- A run of no words. -/
@[simp] theorem runWords_nil (s : State) : runWords [] s = some (s, []) := rfl

/-- The state after a run of one word more. -/
@[simp] theorem finalOf_cons (w : OpWord) (ws : List OpWord) (s : State) : finalOf (w :: ws) s = finalOf ws (after w s) := by
  simp [finalOf, Function.comp_def]

/-- The state after a run of no words. -/
@[simp] theorem finalOf_nil (s : State) : finalOf [] s = some s := rfl

/-! ### One system clock (R131, R144) -/

/-- A system clock of a running block. -/
theorem exec_clock_running {s : State} (h : s.run = true) : exec .evtSysclk s = .next { clockRunning s with rdata := none } := by
  simp [exec, execEvtSysclk, complete, h]

/-- A system clock of a stopped block. -/
theorem exec_clock_stopped {s : State} (h : s.run = false) : exec .evtSysclk s = .next { s with rdata := none } := by
  simp [exec, execEvtSysclk, complete, h]

/-- Every field after the timers, the overflow count and the alignment check (R131). -/
@[simp] theorem clockCheck_fields (s : State) :
    (clockCheck s).cfg = s.cfg ∧ (clockCheck s).port = s.port ∧ (clockCheck s).rdata = s.rdata
    ∧ (clockCheck s).conf = s.conf ∧ (clockCheck s).run = s.run ∧ (clockCheck s).cfgflt = s.cfgflt
    ∧ (clockCheck s).sensin = s.sensin ∧ (clockCheck s).spend = s.spend ∧ (clockCheck s).seqr = s.seqr
    ∧ (clockCheck s).timers = s.timers.clock (divisorA s) ∧ (clockCheck s).est = s.est
    ∧ (clockCheck s).interp = s.interp ∧ (clockCheck s).comp = s.comp
    ∧ (clockCheck s).diag = { s.diag with drift := (s.diag.drift
        || (overflowsB (divisorA s) s.timers && drifted (s.timers.clock (divisorA s)).pha)) }
    ∧ (clockCheck s).shadow = s.shadow
    ∧ (clockCheck s).out = s.out.load (topsA (divisorA s) s.timers) (topsB (divisorA s) s.timers)
    ∧ (clockCheck s).interval
        = { s.interval with ovfcnt := (if ticks s then satInc16 s.interval.ovfcnt else s.interval.ovfcnt) } := by
  unfold clockCheck
  split_ifs <;> simp_all
  all_goals split_ifs <;> simp_all

/-- The duty is all that `setDuty` writes: E4 COLD records nothing (R300). -/
theorem setDuty_eq (s : State) : setDuty s = { s with interp.duty := tickDuty s } := by
  unfold setDuty
  cases s.est.ivalid <;> rfl

/-- The latch plays no part in a clock before the sensor service (R131). -/
theorem clockTick_spend (b : Bool) (s : State) : clockTick { s with spend := b } = { clockTick s with spend := b } := by
  have ht : ticks { s with spend := b } = ticks s := rfl
  have ho : ∀ t : State, countOverflow { t with spend := b } = { countOverflow t with spend := b } := fun _ => rfl
  have h0 : clockCount { s with spend := b } = { clockCount s with spend := b } := by
    unfold clockCount
    rw [ht]
    cases ticks s <;> rfl
  have h1 : clockCheck { s with spend := b } = { clockCheck s with spend := b } := by
    unfold clockCheck checkAlignment
    rw [h0]
    show (if overflowsB (divisorA s) s.timers then _ else _) = _
    cases overflowsB (divisorA s) s.timers
    · rfl
    · simp only [if_true]
      cases drifted (clockCount s).timers.pha <;> rfl
  have h2 : ∀ t : State, tickService { t with spend := b } = { tickService t with spend := b } := by
    intro t
    have hc : compTick { t with spend := b } = { compTick t with spend := b } := by
      unfold compTick
      show (if t.comp.pend then (if (countDown t).comp.pcnt = 0 then _ else _) else _) = _
      split_ifs <;> rfl
    have hd : ∀ u : State, setDuty { u with spend := b } = { setDuty u with spend := b } := fun u => by
      rw [setDuty_eq, setDuty_eq]
      rfl
    have hw : ∀ u : State, writeBuffers { u with spend := b } = { writeBuffers u with spend := b } := by
      intro u
      unfold writeBuffers
      cases u.comp.appv <;> rfl
    have hf : ∀ u : State, advanceFp { u with spend := b } = { advanceFp u with spend := b } := fun _ => rfl
    unfold tickService
    rw [hc, hd, hf, hw]
  unfold clockTick
  rw [ht, h1, h2]
  cases ticks s <;> rfl

/-- A running clock without a notification is its timers and its tick alone. -/
theorem clockRunning_quiet {s : State} (h : s.spend = false) : clockRunning s = clockTick s := by
  simp [clockRunning, serviceSensor, h]

/-- A running clock with a notification is the same clock without it, then the sensor service. -/
theorem clockRunning_served {s : State} (h : s.spend = true) :
    clockRunning s = sensorService (clockTick { s with spend := false }) := by
  simp [clockRunning, serviceSensor, h, clockTick_spend]

/-- A clock without a tick (R142). -/
theorem clockTick_between {s : State} (h : ticks s = false) : clockTick s = clockCheck s := by simp [clockTick, h]

/-- A clock with a tick (R142). -/
theorem clockTick_tick {s : State} (h : ticks s = true) : clockTick s = tickService (clockCheck s) := by simp [clockTick, h]

/-! ### The timers as numbers -/

/-- When Timer A overflows (R133, R135). -/
theorem ticks_iff {s : State} {p : Nat} (h : divisorA s = some p) :
    ticks s = true ↔ s.timers.psca.toNat + 1 = p ∧ (s.timers.pha.toNat + 1) % period = 0 := by
  simp only [ticks, overflowsA, advancesA, pscWraps, h, isBottom, Timers.clock, Bool.and_eq_true, decide_eq_true_eq,
    Option.some.injEq]
  have hn := nextPhase_toNat s.timers.pha
  constructor
  · rintro ⟨hp, hz⟩
    rw [if_pos hp] at hz
    exact ⟨hp.symm, by rw [← hn, hz]; rfl⟩
  · rintro ⟨hp, hz⟩
    refine ⟨hp.symm, ?_⟩
    rw [if_pos hp.symm]
    exact BitVec.eq_of_toNat_eq (by rw [hn, hz]; rfl)

/-- When Timer B overflows (R133, R135, R137). -/
theorem overflowsB_iff {t : Timers} {p : Nat} :
    overflowsB (some p) t = true
      ↔ t.skew = 0 ∧ t.pscb.toNat + 1 = p ∧ (t.phb.toNat + 1) % period = 0 := by
  simp only [overflowsB, advancesB, pscWraps, isBottom, Timers.clock, Bool.and_eq_true, decide_eq_true_eq,
    Option.some.injEq]
  have hn := nextPhase_toNat t.phb
  constructor
  · rintro ⟨⟨hk, hp⟩, hz⟩
    rw [if_pos ⟨hk, hp⟩] at hz
    exact ⟨hk, hp.symm, by rw [← hn, hz]; rfl⟩
  · rintro ⟨hk, hp, hz⟩
    refine ⟨⟨hk, hp.symm⟩, ?_⟩
    rw [if_pos ⟨hk, hp.symm⟩]
    exact BitVec.eq_of_toNat_eq (by rw [hn, hz]; rfl)

/-- The prescaler counter after one clock, as a number (R133). -/
theorem pscNext_toNat {p : Nat} {c : BitVec 10} (hp : p ≤ 1024) (h : c.toNat < p) :
    (pscNext (some p) c).toNat = (c.toNat + 1) % p := by
  unfold pscNext pscWraps
  split_ifs with hw
  · simp only [decide_eq_true_eq, Option.some.injEq] at hw
    rw [← hw, Nat.mod_self]
    rfl
  · simp only [decide_eq_true_eq, Option.some.injEq] at hw
    rw [BitVec.toNat_add, show (1 : BitVec 10).toNat = 1 from rfl, Nat.mod_eq_of_lt (by omega), Nat.mod_eq_of_lt (by omega)]

/-! ### The compensator tick and the outputs -/

/-- The three ways a compensator tick ends (R214). -/
theorem compTick_cases (s : State) :
    (s.comp.pend = false ∧ compTick s = s)
    ∨ (s.comp.pend = true ∧ s.comp.pcnt ≠ 1 ∧ compTick s = { s with comp.pcnt := s.comp.pcnt - 1 })
    ∨ (s.comp.pend = true ∧ s.comp.pcnt = 1
      ∧ compTick s = applyMap s.comp.ptgt { s with comp.pend := false, comp.pcnt := 0 }) := by
  have hz : (countDown s).comp.pcnt = 0 ↔ s.comp.pcnt = 1 := by
    simp only [countDown_fields]
    bv_omega
  unfold compTick
  cases hp : s.comp.pend with
  | false => exact .inl ⟨rfl, rfl⟩
  | true =>
    by_cases h1 : s.comp.pcnt = 1
    · refine .inr (.inr ⟨rfl, h1, ?_⟩)
      have h0 : (countDown s).comp.pcnt = 0 := hz.2 h1
      rw [if_pos rfl, if_pos h0]
      simp only [countDown_fields] at h0
      simp [fireSchedule, countDown, h1]
    · exact .inr (.inl ⟨rfl, h1, by rw [if_pos rfl, if_neg (mt hz.1 h1)]; rfl⟩)

/-- A compensator tick leaves the compare values (R136, R214). -/
@[simp] theorem compTick_ocr (s : State) : (compTick s).out.ocr = s.out.ocr := by
  obtain ⟨-, h⟩ | ⟨-, -, h⟩ | ⟨-, -, h⟩ := compTick_cases s <;> simp [h]

/-- The outputs after a tick: the compensator's enables and polarities, and the buffers of the applied map with the tick's own duty
(R214, R216, R237). -/
theorem tickService_out (s : State) :
    (tickService s).out.en = (compTick s).out.en ∧ (tickService s).out.pol = (compTick s).out.pol
    ∧ (tickService s).out.ocr = s.out.ocr
    ∧ (tickService s).out.ocrbuf
      = (if (compTick s).comp.appv
          then mapBuffers (s.conf.mapAt (compTick s).comp.appstep) { s with interp.duty := tickDuty s }
          else (compTick s).out.ocrbuf) := by
  simp only [tickService, writeBuffers_fields, advanceFp_fields, setDuty_fields, compTick_ocr, compTick_frame]
  split_ifs with h
  · exact ⟨rfl, rfl, rfl, mapBuffers_congr (by simp [tickDuty]) (by simp) _⟩
  · exact ⟨rfl, rfl, compTick_ocr s, rfl⟩

/-- Arm leaves the compare values (R136, R212). -/
@[simp] theorem arm_ocr (p : StepIx) (s : State) : (arm p s).out.ocr = s.out.ocr := by
  unfold arm armDelay armAdvance
  split <;> split <;> simp

/-- The sensor service leaves the compare values (R136). -/
@[simp] theorem sensorService_ocr (s : State) : (sensorService s).out.ocr = s.out.ocr := by
  obtain ⟨-, -, h⟩ | ⟨-, -, -, h⟩ | ⟨-, -, -, -, h⟩ | ⟨j, -, -, h⟩ | h := sensorService_cases s <;>
    simp [h, recordError, accept, acquire]

/-- The compare values after a system clock are the loads at TOP (R136). -/
theorem clockRunning_ocr (s : State) :
    (clockRunning s).out.ocr = (s.out.load (topsA (divisorA s) s.timers) (topsB (divisorA s) s.timers)).ocr := by
  have h : (clockTick s).out.ocr = (s.out.load (topsA (divisorA s) s.timers) (topsB (divisorA s) s.timers)).ocr := by
    unfold clockTick
    split_ifs <;> simp [tickService_out]
  unfold clockRunning serviceSensor
  split_ifs <;> simp [h]

/-- The diagnostics after a system clock: the alignment check's, and the sensor service's count (R138, R167, R301). -/
theorem clockRunning_diag (s : State) :
    (clockRunning s).diag = { (clockTick s).diag with sfcnt := (clockRunning s).diag.sfcnt } := by
  have hs : ∀ u : State, (sensorService u).diag = { u.diag with sfcnt := (sensorService u).diag.sfcnt } := by
    intro u
    obtain ⟨-, -, h⟩ | ⟨-, -, -, h⟩ | ⟨-, -, -, -, h⟩ | ⟨j, -, -, h⟩ | h := sensorService_cases u <;>
      simp [h, recordError]
  unfold clockRunning serviceSensor
  split_ifs
  · exact hs _
  · rfl

end Sys2Proof.Machine
end

