-- ==== Sys2Proof/Tests/Slice0.lean ====
section
/-!
SUPPORT. The model's own tests: the checks of WellFormed, every operation's word written out from the spec's formats, single steps with the
results of spec/95_test_vectors.md, and for each statement with hypotheses a state that meets them.
-/

namespace Sys2Proof.Tests

open Sys2Proof Sys2Proof.Machine

/-! ### WellFormed: what the check refuses (R121, R122) -/

theorem test_wr_address_too_wide : assemble (.wr 0x40 0) = none := by decide
theorem test_wr_data_too_wide : assemble (.wr 0 0x100) = none := by decide
theorem test_rd_address_too_wide : assemble (.rd 0x40) = none := by decide
theorem test_sensor_code_too_wide : assemble (.sensor 0x100) = none := by decide
theorem test_clk_zero : assemble (.clk 0) = none := by decide
theorem test_wr16_other_register : assemble (.wr16 0x06 1) = none := by decide
theorem test_wr16_value_too_wide : assemble (.wr16 0x08 0x200) = none := by decide
theorem test_rd16_four_byte_group : assemble (.rd16 0x12) = none := by decide
theorem test_rd16_no_snap : assemble (.rd16 0x0F) = none := by decide
theorem test_cfgseq_empty : assemble (.cfgseq []) = none := by decide
theorem test_cfgseq_too_long : assemble (.cfgseq (List.replicate 17 0)) = none := by decide
theorem test_cfgseq_code_too_wide : assemble (.cfgseq [1, 0x100, 2]) = none := by decide
theorem test_cfgmap_empty : assemble (.cfgmap []) = none := by decide
theorem test_cfgmap_too_long : assemble (.cfgmap (List.replicate 17 0)) = none := by decide
theorem test_cfgmap_map_too_wide : assemble (.cfgmap [0x100]) = none := by decide
theorem test_divisor_zero : Config.divisorOk (some 0) = false ∧ Config.divisorOk (some 1025) = false := by decide
theorem test_every_operation_well_formed :
    (Instr.wr 0x3F 0xFF).wellFormed = true ∧ (Instr.rd 0x3F).wellFormed = true ∧ (Instr.evtSensor 0xFF).wellFormed = true := by
  decide

/-! ### Decoding: a word of each operation, bit by bit (R113 to R116) -/

/-- 00, address 100101 (SEQ[5]), data 00000101: 0x2505 of CFG6. -/
theorem test_decode_wr : decode (0b00_100101_00000101) = some (.wr 0x25 0x05) := by decide
/-- 01, address 010010 (IC_LO), low byte 0: 0x5200 of V-SNAP-3. -/
theorem test_decode_rd : decode (0b01_010010_00000000) = some (.rd 0x12) := by decide
theorem test_decode_nop : decode (0b10_0000_0000000000) = some .nop := by decide
theorem test_decode_start : decode (0b10_0001_0000000000) = some .start := by decide
theorem test_decode_stop : decode (0b10_0010_0000000000) = some .stop := by decide
theorem test_decode_clrdiag : decode (0b10_0011_0000000000) = some .clrdiag := by decide
theorem test_decode_sysclk : decode (0b11_0000_00_00000000) = some .evtSysclk := by decide
theorem test_decode_sysclk_word : decode 0xC000 = some .evtSysclk := by decide
theorem test_decode_sensor : decode (0b11_0001_00_10100101) = some (.evtSensor 0xA5) := by decide
theorem test_decode_reset : decode (0b11_0010_00_00000000) = some .evtReset := by decide
/-- The reserved words of V-DEC-4, 6, 7, 9, 11, 13 and 14, and the last command and event codes (R115, R116). -/
theorem test_decode_reserved :
    [0x4101, 0x8401, 0x9000, 0xC001, 0xC500, 0xCC00, 0xFFFF, 0xBC00, 0xFC00, 0xC801, 0xC600].all
      (fun w => (decode w).isNone) = true := by decide
/-- The words of CFG6 as the assembler writes them. -/
theorem test_assemble_line : assembleLine "WR SEQ[5], 0x05 ; F".toList = some [.wr 0x25 0x05] := by decide
theorem test_assemble_names : assembleText ["RD OVF_HI".toList, " ; only a comment".toList, "SENSOR 0b11".toList,
    "WR PWMMAX, 200".toList] = some [0x5700, 0xC403, 0x07C8] := by decide
theorem test_assemble_wr16 : (assemble (.wr16 0x08 509)).map (List.map encode) = some [0x08FD, 0x0901] := by decide
theorem test_assemble_rdiv : (assemble .rdiv).map (List.map encode) = some [0x5200, 0x5300, 0x5400, 0x5500] := by decide

/-- The host's two questions on one word. -/
theorem test_table_word : decodeTableWord 16 0x8400 = some .start ∧ decodeTableWord 16 0x10000 = some (.wr 0 0)
    ∧ decodeTableWord 17 0x10000 = none := by decide
theorem test_fetch_word : step (State.reset.withFetchWord 16 0xC4A5) = exec (.evtSensor 0xA5) State.reset := by rfl

/-! ### Small states -/

/-- The configuration CFG6 of 95_test_vectors.md. -/
def conf6 : Conf where
  fclass := 0
  phmode := .delay
  fpmode := .wrap
  seqlen := 6
  seq := #v[0x01, 0x03, 0x02, 0x06, 0x04, 0x05, 0, 0, 0, 0, 0, 0, 0, 0, 0, 0]
  chmap := #v[0x09, 0x21, 0x24, 0x06, 0x12, 0x18, 0, 0, 0, 0, 0, 0, 0, 0, 0, 0]
  phofs := 0
  pwmmax := 200
  align := 0

/-- A stopped block with that configuration and a Hall code. -/
def ready (code : Byte) : State := { State.reset with conf := conf6, sensin := code }

/-- The running block of section 2.7 at its second step, before the accepting clock: position 1, four ticks after its edge. -/
def running (conf : Conf) (code : Byte) : State :=
  { State.reset with
    conf := conf
    run := true
    sensin := code
    spend := true
    seqr := { pos := 1, pv := true, dir := .forward }
    interval := { ovfcnt := 4, lastph := 1, refv := true }
    comp := { pend := false, ptgt := 0, pcnt := 0, appstep := 1, appv := true }
    out := { Outputs.allOff with en := mapEnables conf.chmap[1], pol := mapPolarities conf.chmap[1] } }

/-- A block running at rate 32768 with a schedule `pcnt` ticks ahead, its next clock a tick (PHA = 509). -/
def ticking (conf : Conf) (fp : BitVec 16) (pcnt : BitVec 16) : State :=
  { running conf 0x03 with
    spend := false
    timers := { pha := 509, phb := 509, psca := 0, pscb := 0, skew := 0 }
    est := { ic := 2, ifine := 0, rate := 32768, ivalid := true }
    interp := { fp := fp, ovr := false, duty := 0 }
    comp := { pend := pcnt != 0, ptgt := 2, pcnt := pcnt, appstep := 1, appv := true } }

/-- A block running with no position known. -/
def lost (code : Byte) : State :=
  { ready code with run := true, spend := true }

/-- What an operation leaves, seen through `f`. -/
def result {α : Type} (f : State → α) (r : Result) : Option α :=
  match r with
  | .next t => some (f t)
  | .fault _ => none
  | .refused _ => none

/-! ### One step each, from the vectors -/

/-- V-HOST-2: FCLASS 7, PHMODE 1, FPMODE 1, and bits 7 to 5 read 0. -/
theorem test_wr_ctrl : result ctrlByte (exec (.wr 0x00 0xFF) State.reset) = some 0x1F := by decide
/-- V-HOST-12, one of its writes: a locked register of a running block. -/
theorem test_wr_locked : result (fun t => (errByte t, t.conf.phofs)) (exec (.wr 0x06 3) (running conf6 3)) = some (0x02, 0) := by
  decide
/-- V-SNAP-1: PHA = 300 reads 0x2C, and the shadow takes 0x01. -/
theorem test_rd_snap : result (fun t => (t.rdata, t.shadow.pha))
    (exec (.rd 0x18) { running conf6 3 with timers.pha := 300 }) = some (some 0x2C, 0x01) := by decide
/-- V-HOST-1, one of its reads. -/
theorem test_rd_status_reset : result (fun t => t.rdata) (exec (.rd 0x01) State.reset) = some (some 0) := by decide
/-- V-HOST-19. -/
theorem test_nop : result (fun t => (t.rdata, t.diag)) (exec .nop (ready 1)) = some (none, State.reset.diag) := by decide
/-- V-HOST-3: a START straight after reset. -/
theorem test_start_faults : result statusByte (exec .start State.reset) = some 0x02 := by decide
/-- P6: START with the code of step 1 acquires it: POSAPP 0x11, OUTEN 0x05. -/
theorem test_start_acquires : result (fun t => (posappByte t, outenByte t, t.run)) (exec .start (ready 0x03))
    = some (0x11, 0x05, true) := by decide
/-- V-HOST-17: STOP keeps the position and switches the outputs off. -/
theorem test_stop : result (fun t => (statusByte t, t.seqr.pos, outenByte t)) (exec .stop (running conf6 3))
    = some (0x04, 1, 0) := by decide
/-- V-HOST-14. -/
theorem test_clrdiag : result (fun t => (errByte t, t.diag.sfcnt))
    (exec .clrdiag { ready 1 with diag := { illop := true, lockwr := true, rowr := true, slost := true, drift := true, sfcnt := 3 } })
    = some (0, 0) := by decide
/-- V-SEQ-1 at four ticks (V-COMP-1): the forward step with IC = 4, RATE 16384, STATUS 0x0D, POSAPP 0x22. -/
theorem test_clock_accepts : result (fun t => (statusByte t, posappByte t, t.est.ic, t.est.ifine, t.est.rate))
    (exec .evtSysclk (running conf6 0x02)) = some (0x0D, 0x22, 4, 0, 16384) := by decide
/-- V-INT-7, its second tick: FP 32768 gives DUTY 100, the advance wraps to 0 and sets OVR. -/
theorem test_clock_ticks : result (fun t => (t.interp.duty, t.interp.fp, t.interp.ovr))
    (exec .evtSysclk (ticking conf6 32768 0)) = some (100, 0, true) := by decide +kernel
/-- V-SEQ-6, two of its events: the code the latch already holds is no notification, a second change is SLOST. -/
theorem test_sensor_merges : result (fun t => (errByte t, t.spend, t.sensin)) (exec (.evtSensor 0x06) (running conf6 2))
    = some (0x08, true, 0x06) := by decide
/-- V-SEQ-8 and V-DEC-10: a stopped block latches nothing. -/
theorem test_sensor_stopped : result (fun t => (t.spend, t.sensin)) (exec (.evtSensor 0xA5) State.reset)
    = some (false, 0xA5) := by decide
/-- V-DEC-12. -/
theorem test_reset : exec .evtReset (running conf6 2) = .next State.reset := by rfl
/-- V-DEC-11: a reserved word sets ILLOP and leaves SENSIN. -/
theorem test_reserved : result (fun t => (errByte t, t.sensin)) (deliver 0xC500 (ready 7)) = some (0x01, 7) := by decide
/-- V-SYNC-9. -/
theorem test_tcnt : [0, 1, 254, 255, 256, 509].map tcnt = [0, 1, 254, 255, 254, 1] := by decide
/-- V-EST-5 and V-EST-13. -/
theorem test_rate : rateOf 511 = 65407 ∧ rateOf 153007 = 218 := by decide
/-- V-INT-3, V-INT-4 and V-INT-5. -/
theorem test_duty : dutyOf 255 128 = 128 ∧ dutyOf 1 127 = 0 ∧ dutyOf 1 128 = 1 ∧ dutyOf 3 85 = 1 ∧ dutyOf 200 38 = 30 := by
  decide
/-- V-INT-10. -/
theorem test_envelope : [0, 64, 85, 127, 128, 170, 192, 255].map (fun i => envTable[i]!) = [0, 38, 64, 127, 128, 191, 218, 255] := by
  decide

/-! ### The invariant of concrete states -/

theorem wf_default : Config.default.wf = true := by decide +kernel

theorem divisor_default (s : State) (h : s.cfg = Config.default) (hf : s.conf.fclass = 0) : divisorA s = some 1 := by
  simp [divisorA, classDivisor, h, hf, Config.default, prescADefault]

theorem inv_ready (code : Byte) : Inv (ready code) := by
  constructor <;> simp [wf_default, ZeroOutput, OutputsOff, Outputs.allOff, ready, State.reset, State.atReset]

/-- Any configuration of the tests' running states: valid, at frequency class 0, whatever its modes. -/
theorem inv_running (conf : Conf) (code : Byte) (hv : confValid Config.default conf = true) (hf : conf.fclass = 0)
    (hl : 3 ≤ conf.seqlen.toNat) : Inv (running conf code) := by
  have hd := divisor_default (running conf code) rfl hf
  refine ⟨wf_default, by simp [running, State.reset, State.atReset], ?_, fun _ => ⟨hv, rfl⟩, ?_, fun _ => rfl, ?_, ?_, ?_, fun _ => ⟨rfl, rfl, rfl⟩, ?_, ?_, ?_⟩
  · simp [running]
  · intro _ p hp
    rw [hd] at hp
    cases hp
    simp [running, State.reset, State.atReset]
  · simp [running]
  · intro _
    simp only [running]
    exact ⟨fun _ => by simp; omega, fun _ => by simp; omega⟩
  · simp [running, State.reset, State.atReset]
  · simp [running]
  · simp [running]
  · intro _ _
    exact ⟨rfl, rfl⟩

/-- CFG6 and the variants the statements' cases need are valid. -/
theorem valid_confs : confValid Config.default conf6 = true ∧ confValid Config.default { conf6 with phofs := 2 } = true
    ∧ confValid Config.default { conf6 with phmode := .advance, phofs := 1 } = true
    ∧ confValid Config.default { conf6 with fpmode := .saturate } = true := by decide

theorem inv_ticking (conf : Conf) (fp : BitVec 16) (pcnt : BitVec 16) (hv : confValid Config.default conf = true)
    (hf : conf.fclass = 0) (hl : 3 ≤ conf.seqlen.toNat) : Inv (ticking conf fp pcnt) := by
  have hd := divisor_default (ticking conf fp pcnt) rfl hf
  refine ⟨wf_default, by simp [ticking, running, State.reset, State.atReset], ?_, fun _ => ⟨hv, rfl⟩, ?_, ?_, ?_, ?_, ?_, ?_, ?_, ?_, ?_⟩
  · simp [ticking, running]
  · intro _ p hp
    rw [hd] at hp
    cases hp
    simp [ticking]
  · simp [ticking, running]
  · intro hp
    simp only [ticking, bne_iff_ne, ne_eq] at hp
    exact ⟨rfl, hp, by simp [ticking, running]; omega⟩
  · intro _
    simp only [ticking, running]
    exact ⟨fun _ => by simp; omega, fun _ => by simp; omega⟩
  · simp [ticking]
  · simp [ticking]
  · simp [ticking, running]
  · simp [ticking]
  · intro _ _
    exact ⟨rfl, rfl⟩

/-! ### Witnesses: a state that meets the hypotheses of each statement, clause by clause -/

/-- A word that decodes and one that is reserved, each waiting on the port. -/
theorem witness_StepRunsTheDecodedWord :
    (∃ (s : State) (w : OpWord) (rest : List OpWord), s.port = w :: rest ∧ decode w = some .start)
    ∧ ∃ (s : State) (w : OpWord) (rest : List OpWord), s.port = w :: rest ∧ decode w = none :=
  ⟨⟨{ State.reset with port := [0x8400] }, 0x8400, [], rfl, by decide⟩,
    ⟨{ State.reset with port := [0x8401] }, 0x8401, [], rfl, by decide⟩⟩

theorem witness_IdleStepChangesNothing : ∃ s : State, s.port = [] := ⟨State.reset, rfl⟩

theorem witness_DecodeGivesBackTheEncodedOperation : ∃ i : Instr, i.wellFormed = true := ⟨.wr 0x3F 0xFF, rfl⟩

theorem witness_OnlyTheEncodingDecodes : ∃ (w : OpWord) (i : Instr), decode w = some i := ⟨0xC4FF, .evtSensor 0xFF, by decide⟩

theorem witness_OpcodeMapDecidesEveryWord : decode 0x3FFF = some (.wr 0x3F 0xFF) ∧ (opRow .nop).matchesWord 0x8000 = true := by
  decide

theorem witness_ReservedWordSetsIllopAlone : ∃ w : OpWord, decode w = none := ⟨0xFFFF, by decide⟩

/-- A delivered read, a delivered word that is none, and their next states. -/
theorem witness_ReadDataIsSetByReadsAlone :
    (∃ (w : OpWord) (t : State), deliver w (ready 1) = .next t ∧ decode w = some (.rd 0x3F))
    ∧ ∃ (w : OpWord) (t : State), deliver w (ready 1) = .next t ∧ ∀ a, decode w ≠ some (.rd a) :=
  ⟨⟨0x7F00, _, deliver_next _ _, by decide⟩, ⟨0x8000, _, deliver_next _ _, by decide⟩⟩

/-- The first and last words between the snap and the shadow reads: another snap, and a clock. -/
theorem witness_SnapshotReadsAreOfOneInstant : ∀ lo ∈ [0x0E#6, 0x10, 0x12, 0x16, 0x18, 0x1A],
    (decode 0xC000 ≠ some (.rd lo) ∧ decode 0xC000 ≠ some .evtReset)
    ∧ (decode 0x4F00 ≠ some (.rd lo) ∧ decode 0x4F00 ≠ some .evtReset) := by decide

/-- Boundary addresses of each access class, a running and a stopped block. -/
theorem witness_WriteIsStoredOrRefused :
    ((0x01#6 ∉ [0x00#6, 0x03#6, 0x06#6, 0x07#6, 0x08#6, 0x09#6] ∧ (0x01#6).toNat < 0x20)
      ∧ (0x1F#6 ∉ [0x00#6, 0x03#6, 0x06#6, 0x07#6, 0x08#6, 0x09#6] ∧ (0x1F#6).toNat < 0x20))
    ∧ ((0x09#6 ∈ [0x00#6, 0x03#6, 0x06#6, 0x08#6, 0x09#6] ∨ 0x20 ≤ (0x09#6).toNat)
      ∧ (0x20#6 ∈ [0x00#6, 0x03#6, 0x06#6, 0x08#6, 0x09#6] ∨ 0x20 ≤ (0x20#6).toNat)
      ∧ (0x3F#6 ∈ [0x00#6, 0x03#6, 0x06#6, 0x08#6, 0x09#6] ∨ 0x20 ≤ (0x3F#6).toNat) ∧ (running conf6 2).run = true)
    ∧ (ready 1).run = false := by decide

theorem witness_WrittenByteReadsBack :
    regAccess (regAt 0x07) = .rw ∧ (regAccess (regAt 0x00) = .rwl ∧ regAccess (regAt 0x3F) = .rwl ∧ (ready 1).run = false) := by
  decide

theorem witness_RefusedWriteIsSeenInErrAlone :
    regAccess (regAt 0x01) = .ro ∧ regAccess (regAt 0x1F) = .ro
    ∧ (regAccess (regAt 0x20) = .rwl ∧ (running conf6 2).run = true) := by decide

/-- A running block and a word that is neither a write nor a reset; and one that is a write. -/
theorem witness_ConfigurationIsLockedWhileRunning :
    ∃ t, deliver 0xC000 (running conf6 2) = .next t ∧ (∀ a d, decode 0xC000 ≠ some (.wr a d))
      ∧ decode 0xC000 ≠ some .evtReset ∧ decode 0x07FF ≠ some .evtReset ∧ (running conf6 2).run = true :=
  ⟨_, deliver_next _ _, (fun a d h => by rw [test_decode_sysclk_word] at h; cases h), by decide, by decide, rfl⟩

/-- RUN = 1; CFGFLT = 1; and a stopped block whose check fails, which is the one after reset. -/
theorem witness_StartIsIgnoredOrFaults :
    (running conf6 2).run = true ∧ { State.reset with cfgflt := true }.cfgflt = true
    ∧ (State.reset.run = false ∧ State.reset.cfgflt = false ∧ cfgValid State.reset = false) :=
  ⟨rfl, rfl, rfl, rfl, by decide⟩

theorem witness_ConfigurationCheckIsTheFourConditions : (ready 1).run = false ∧ (ready 1).cfgflt = false := ⟨rfl, rfl⟩

theorem witness_ResetClearsEveryElement : State.reset.cfg = Config.default ∧ State.reset.port = [] := ⟨rfl, rfl⟩

theorem witness_StartInitialisesTheRunningState :
    (ready 1).run = false ∧ (ready 1).cfgflt = false ∧ cfgValid (ready 1) = true := ⟨rfl, rfl, valid_confs.1⟩

/-- A code at the first step, one at the last, and one at none. -/
theorem witness_StartAcquiresThePosition :
    cfgValid (ready 1) = true ∧ (ready 0x01).conf.seq[0] = (ready 0x01).sensin ∧ (ready 0x05).conf.seq[5] = (ready 0x05).sensin
    ∧ ∀ j : Fin 16, j.val < (ready 7).conf.seqlen.toNat → (ready 7).conf.seq[j] ≠ (ready 7).sensin :=
  ⟨valid_confs.1, by decide⟩

theorem witness_ConfigurationFaultIsFatalUntilReset :
    ∃ t, Inv { ready 1 with cfgflt := true } ∧ decode 0x8400 ≠ some .evtReset
      ∧ deliver 0x8400 { ready 1 with cfgflt := true } = .next t := by
  refine ⟨_, ?_, by decide, deliver_next _ _⟩
  constructor <;> simp [wf_default, ZeroOutput, OutputsOff, Outputs.allOff, ready, State.reset, State.atReset]

/-- Two stopped blocks that differ in what an earlier run left, both started. -/
theorem witness_RestartForgetsTheEarlierRun :
    ∃ t v, exec .start (ready 1) = .next t ∧ exec .start { ready 1 with diag.sfcnt := 9, timers.pha := 90 } = .next v
      ∧ cfgValid (ready 1) = true ∧ (ready 1).run = false ∧ (ready 1).cfgflt = false :=
  ⟨_, _, rfl, rfl, valid_confs.1, rfl, rfl⟩

/-- Each of the five kinds of operation, with a next state. -/
theorem witness_RepeatedHostOperationsAreIdempotent :
    ∀ i ∈ [Instr.nop, .clrdiag, .stop, .wr 0x00 0xFF, .rd 0x12], ∃ t, exec i (ready 1) = .next t := by
  intro i _
  cases i <;> exact ⟨_, rfl⟩

theorem witness_SensorEventLatchesAChange :
    ((ready 1).run = false ∧ (running conf6 2).sensin = 2)
    ∧ ((ticking conf6 0 0).run = true ∧ (7 : Byte) ≠ (ticking conf6 0 0).sensin ∧ (ticking conf6 0 0).spend = false)
    ∧ ((running conf6 2).run = true ∧ (6 : Byte) ≠ (running conf6 2).sensin ∧ (running conf6 2).spend = true) := by decide

theorem witness_ClockOfAStoppedBlockChangesNothing : (ready 1).run = false := rfl

/-- The last count of a prescaler with P = 1, without a skew and with one. -/
theorem witness_ClockAdvancesTheTimers :
    ((running conf6 2).run = true ∧ divisorA (running conf6 2) = some 1 ∧ (running conf6 2).timers.psca.toNat < 1
      ∧ (running conf6 2).timers.pscb.toNat < 1 ∧ (running conf6 2).timers.skew = 0)
    ∧ ({ running conf6 2 with timers.skew := 3 }.timers.skew ≠ 0
      ∧ divisorA { running conf6 2 with timers.skew := 3 } = some 1) :=
  ⟨⟨rfl, divisor_default _ rfl rfl, by decide⟩, by decide, divisor_default _ rfl rfl⟩

theorem witness_CompareValuesLoadAtTop :
    ∃ s : State, s.run = true ∧ divisorA s = some 1 ∧ s.timers.psca.toNat + 1 = 1 ∧ s.timers.pha.toNat = 254 :=
  ⟨{ running conf6 2 with timers.pha := 254 }, rfl, divisor_default _ rfl rfl, rfl, rfl⟩

theorem witness_AlignmentCheckSetsDrift :
    ∃ s : State, s.run = true ∧ divisorA s = some 1 ∧ s.timers.pscb.toNat + 1 = 1 ∧ (s.timers.phb.toNat + 1) % 510 = 0 :=
  ⟨ticking conf6 0 0, rfl, divisor_default _ rfl rfl, rfl, rfl⟩

theorem witness_ClockBetweenTicksLeavesTheRest :
    ∃ s : State, s.run = true ∧ divisorA s = some 1 ∧ s.spend = false
      ∧ ¬(s.timers.psca.toNat + 1 = 1 ∧ (s.timers.pha.toNat + 1) % 510 = 0) :=
  ⟨{ ticking conf6 0 0 with timers.pha := 508 }, rfl, divisor_default _ rfl rfl, rfl, by decide⟩

/-- A tick, in each FP mode. -/
theorem witness_TickCountsAndMovesTheInterpolator :
    ∃ s u : State, (s.run = true ∧ divisorA s = some 1 ∧ s.spend = false ∧ s.timers.psca.toNat + 1 = 1
      ∧ (s.timers.pha.toNat + 1) % 510 = 0 ∧ s.conf.fpmode = .wrap)
      ∧ (u.run = true ∧ divisorA u = some 1 ∧ u.spend = false ∧ u.timers.psca.toNat + 1 = 1
      ∧ (u.timers.pha.toNat + 1) % 510 = 0 ∧ u.conf.fpmode = .saturate) :=
  ⟨ticking conf6 65535 0, ticking { conf6 with fpmode := .saturate } 65535 0,
    ⟨rfl, divisor_default _ rfl rfl, rfl, rfl, rfl, rfl⟩, ⟨rfl, divisor_default _ rfl rfl, rfl, rfl, rfl, rfl⟩⟩

/-- A tick with no schedule, with one of two ticks, and with one of one tick. -/
theorem witness_TickRunsTheCompensatorAndWritesTheBuffers :
    ∀ k ∈ [0#16, 2, 1], (ticking conf6 0 k).run = true ∧ (ticking conf6 0 k).spend = false
      ∧ (ticking conf6 0 k).timers.psca.toNat + 1 = 1 ∧ ((ticking conf6 0 k).timers.pha.toNat + 1) % 510 = 0
      ∧ (ticking conf6 0 k).comp.pend = (k != 0) ∧ (ticking conf6 0 k).comp.pcnt = k := by
  intro k _
  simp [ticking, running, State.reset, State.atReset]

/-- Both directions; the last reference an accepted transition, and not. -/
theorem witness_AcceptedTransitionMovesAndRecords :
    (Inv (running conf6 2) ∧ (running conf6 2).conf.seq.toList[(1 + 1) % 6]? = some (running conf6 2).sensin)
    ∧ (Inv (running conf6 1) ∧ (running conf6 1).conf.seq.toList[(1 + 6 - 1) % 6]? = some (running conf6 1).sensin)
    ∧ ((running conf6 2).run = true ∧ (running conf6 2).spend = true ∧ (running conf6 2).seqr.pv = true
      ∧ (running conf6 2).interval.refv = true) :=
  ⟨⟨inv_running _ _ valid_confs.1 rfl (by decide), by decide⟩, ⟨inv_running _ _ valid_confs.1 rfl (by decide), by decide⟩, by decide⟩

theorem witness_AcceptedTransitionWithoutAReference :
    Inv { running conf6 2 with interval := { ovfcnt := 0, lastph := 0, refv := false } } := by
  obtain ⟨a, b, c, d, e, f, g, i, j, k, l, m, n⟩ := inv_running conf6 2 valid_confs.1 rfl (by decide)
  exact ⟨a, ⟨b.1, b.2.1, by decide, b.2.2.2⟩, fun _ => Nat.zero_le _, d, e, f, g, i, j, k, l, m, n⟩

/-- DELAY with an offset and without, ADVANCE with a prediction (IC = 4 after the clock) and an offset too large for one. -/
theorem witness_AcceptedTransitionArmsTheCompensator :
    (∀ conf ∈ [conf6, { conf6 with phofs := 2 }, { conf6 with phmode := .advance, phofs := 1 },
        { conf6 with phmode := .advance, phofs := 4 }],
      Inv (running conf 2) ∧ (running conf 2).sensin = forwardCode (running conf 2)
      ∧ ∃ t u, exec .evtSysclk (running conf 2) = .next t ∧ exec .evtSysclk { running conf 2 with spend := false } = .next u)
    ∧ result (fun t => (t.est.ivalid, t.est.ic)) (exec .evtSysclk (running { conf6 with phmode := .advance, phofs := 1 } 2))
      = some (true, 4) := by
  refine ⟨?_, by decide⟩
  intro conf hc
  have h : confValid Config.default conf = true ∧ conf.fclass = 0 ∧ 3 ≤ conf.seqlen.toNat
      ∧ (running conf 2).sensin = forwardCode (running conf 2) := by revert conf; decide
  exact ⟨inv_running _ _ h.1 h.2.1 h.2.2.1, h.2.2.2, _, _, rfl, rfl⟩

/-- A block with no position and the code of its first step, and of its last. -/
theorem witness_FirstMatchingCodeAcquires :
    (lost 1).run = true ∧ (lost 1).spend = true ∧ (lost 1).seqr.pv = false ∧ (lost 1).conf.seq[0] = (lost 1).sensin
    ∧ (lost 5).conf.seq[5] = (lost 5).sensin ∧ 5 < (lost 5).conf.seqlen.toNat := by decide

theorem inv_lost (code : Byte) : Inv (lost code) := by
  have hd := divisor_default (lost code) rfl rfl
  refine ⟨wf_default, by simp [lost, ready, State.reset, State.atReset], ?_, fun _ => ⟨valid_confs.1, rfl⟩, ?_, fun _ => rfl,
    ?_, ?_, ?_, fun _ => ⟨rfl, rfl, rfl⟩, ?_, fun _ => rfl, ?_⟩
  · simp [lost, ready, State.reset, State.atReset]
  · intro _ p hp
    rw [hd] at hp
    cases hp
    simp [lost, ready, State.reset, State.atReset]
  all_goals simp [lost, ready, State.reset, State.atReset]

/-- The current code, a code two steps away, and with no position a code of no step. -/
theorem witness_DiscardedNotificationChangesSfcntAlone :
    (∀ code ∈ [3#8, 4, 7], (running conf6 code).seqr.pv = true ∧ (running conf6 code).sensin ≠ forwardCode (running conf6 code)
      ∧ (running conf6 code).sensin ≠ reverseCode (running conf6 code))
    ∧ (running conf6 3).sensin = currentCode (running conf6 3)
    ∧ (lost 7).run = true ∧ (lost 7).spend = true ∧ (lost 7).seqr.pv = false
    ∧ (∀ j : Fin 16, j.val < (lost 7).conf.seqlen.toNat → (lost 7).conf.seq[j] ≠ (lost 7).sensin)
    ∧ (∃ u, exec .evtSysclk { running conf6 4 with spend := false } = .next u)
    ∧ ∃ u, exec .evtSysclk { lost 7 with spend := false } = .next u :=
  ⟨by decide, by decide, rfl, rfl, rfl, by decide, ⟨_, rfl⟩, ⟨_, rfl⟩⟩

theorem witness_PositionMovesOnlyToANeighbour :
    ∃ t, Inv (running conf6 2) ∧ (running conf6 2).run = true ∧ (running conf6 2).seqr.pv = true
      ∧ decode 0xC000 ≠ some .evtReset ∧ deliver 0xC000 (running conf6 2) = .next t :=
  ⟨_, inv_running _ _ valid_confs.1 rfl (by decide), rfl, rfl, by decide, deliver_next _ _⟩

theorem witness_RateIsTheFloorOfSpanPerTick : (510 : Nat) ≠ 0 ∧ 510 ≤ 510 ∧ 33423359 ≤ 33423359 := by decide

theorem witness_RateOfWholeTicksIsSpanOverTicks : 1 < 2 ∧ 65535 ≤ 65535 := by decide

theorem witness_DutyIsRoundedToNearest : (127 : Byte) ≤ 128 ∧ Config.default.romConforms = true := by decide +kernel

theorem witness_PinsFollowTheComparator : (254 : Phase).toNat < 255 ∧ 255 ≤ (509 : Phase).toNat ∧ (509 : Phase).toNat < 510 := by
  decide

theorem witness_StoppedBlockDrivesNoPin : Inv (ready 1) ∧ (ready 1).run = false := ⟨inv_ready 1, rfl⟩

theorem witness_ColdStartDrivesCompareValueZero : Inv (running conf6 2) ∧ (running conf6 2).est.ivalid = false :=
  ⟨inv_running _ _ valid_confs.1 rfl (by decide), rfl⟩

theorem witness_InvariantHoldsAtReset : Config.default.wf = true := wf_default

/-- A clock of a running block with a notification waiting, from the port. -/
theorem witness_EveryStepKeepsTheInvariant :
    ∃ t, Inv { running conf6 2 with port := [0xC000] } ∧ step { running conf6 2 with port := [0xC000] } = .next t := by
  obtain ⟨a, b, c, d, e, f, g, i, j, k, l, m, n⟩ := inv_running conf6 2 valid_confs.1 rfl (by decide)
  exact ⟨_, ⟨a, b, c, d, e, f, g, i, j, k, l, m, n⟩, rfl⟩

/-- Every run of words ends in a state. -/
theorem run_ends (ws : List OpWord) (s : State) : ∃ r, runWords ws s = some r := by
  induction ws generalizing s with
  | nil => exact ⟨_, runWords_nil s⟩
  | cons w ws ih =>
    obtain ⟨r, hr⟩ := ih (after w s)
    exact ⟨_, by rw [runWords_cons, hr]; rfl⟩

/-- The same, for its last state. -/
theorem final_ends (ws : List OpWord) (s : State) : ∃ u, finalOf ws s = some u := by
  obtain ⟨r, hr⟩ := run_ends ws s
  exact ⟨r.1, by rw [finalOf, hr]; rfl⟩

/-- START, then a clock and a reserved word, at alignment 0 and without a skew. -/
theorem witness_AlignmentLaw :
    (ready 1).cfg.wf = true ∧ (ready 1).run = false ∧ (ready 1).cfgflt = false ∧ cfgValid (ready 1) = true
    ∧ divisorA (ready 1) = some 1
    ∧ (∃ s0, exec .start (ready 1) = .next s0 ∧ ∃ u, finalOf [0xC000, 0xFFFF] s0 = some u)
    ∧ (decode 0xC000 ≠ some .stop ∧ decode 0xC000 ≠ some .evtReset ∧ decode 0xC000 ≠ some .clrdiag)
    ∧ (decode 0xFFFF ≠ some .stop ∧ decode 0xFFFF ≠ some .evtReset ∧ decode 0xFFFF ≠ some .clrdiag)
    ∧ (ready 1).cfg.startSkew ≤ 1 :=
  ⟨wf_default, rfl, rfl, valid_confs.1, divisor_default _ rfl rfl, ⟨_, rfl, final_ends _ _⟩, by decide, by decide, by decide⟩

/-- A schedule of one tick, one clock before it and at it: no clock, and the clock that ticks. -/
theorem witness_ScheduleAppliesAtItsTick :
    (∃ u, finalOf (clocks 0) (ticking conf6 0 1) = some u) ∧ (∃ u, finalOf (clocks 1) (ticking conf6 0 1) = some u)
    ∧ Inv (ticking conf6 0 1) ∧ (ticking conf6 0 1).run = true ∧ (ticking conf6 0 1).spend = false
    ∧ (ticking conf6 0 1).comp.pend = true ∧ divisorA (ticking conf6 0 1) = some 1
    ∧ (509 * 1 + 0 + 0) / (510 * 1) < 1 ∧ 1 ≤ (509 * 1 + 0 + 1) / (510 * 1) :=
  ⟨final_ends _ _, final_ends _ _,
    inv_ticking _ _ _ valid_confs.1 rfl (by decide), rfl, rfl, by decide, divisor_default _ rfl rfl, by decide, by decide⟩

/-- Two runs of three words from states that differ in the diagnostics. -/
theorem witness_DiagnosticsAreNeverRead :
    (∃ p, runWords [0x4400, 0xC000, 0x8400] (running conf6 2) = some p)
    ∧ (∃ q, runWords [0x4400, 0xC000, 0x8400] { running conf6 2 with diag := { State.reset.diag with sfcnt := 255 } } = some q)
    ∧ ∀ a ∈ [0x01#6, 0x02, 0x0B], decode 0x4400 ≠ some (.rd a) ∧ decode 0xC000 ≠ some (.rd a) ∧ decode 0x8400 ≠ some (.rd a) :=
  ⟨run_ends _ _, run_ends _ _, by decide⟩

theorem witness_WrapSignalIsAdvisory :
    ∃ t u, deliver 0xC000 (running conf6 2) = .next t ∧ deliver 0xC000 { running conf6 2 with interp.ovr := true } = .next u
      ∧ decode 0xC000 ≠ some (.rd 0x01) :=
  ⟨_, _, deliver_next _ _, deliver_next _ _, by decide⟩

theorem witness_ErrorsAreStickyAndSetByTheirOperation :
    ∃ t, deliver 0xC406 (running conf6 2) = .next t ∧ decode 0xC406 ≠ some .clrdiag ∧ decode 0xC406 ≠ some .evtReset
      ∧ decode 0xC406 ≠ some .evtSysclk :=
  ⟨_, deliver_next _ _, by decide⟩

/-- A sensor event of a running block; a clock of a stopped one. -/
theorem witness_TimersMoveOnlyWithTheClock :
    (∃ t, deliver 0xC406 (running conf6 2) = .next t ∧ decode 0xC406 ≠ some .evtReset ∧ decode 0xC406 ≠ some .evtSysclk
      ∧ decode 0xC406 ≠ some .start)
    ∧ ∃ t, deliver 0xC000 (ready 1) = .next t ∧ (ready 1).run = false :=
  ⟨⟨_, deliver_next _ _, by decide⟩, ⟨_, deliver_next _ _, rfl⟩⟩

/-- The least and the greatest ALIGN, and the shortest and the longest code list. -/
theorem witness_PseudoInstructionsConfigureTheBlock :
    (ready 1).run = false ∧ 0 ≤ 0x1FF ∧ 0x1FF ≤ 0x1FF ∧ (1 ≤ [7#8].length ∧ [7#8].length ≤ 16)
    ∧ (1 ≤ (List.replicate 16 7#8).length ∧ (List.replicate 16 7#8).length ≤ 16) := by decide

theorem witness_AssemblerNeverCutsAnOperand : ∃ ops, assemble (.wr 0x3F 0xFF) = some ops := ⟨_, rfl⟩

end Sys2Proof.Tests
end

namespace Sys2Proof.Machine

/-! The step of a block with no word waiting on its port (R7, R331; log 2). -/

theorem fetch_eq_none_of_port_nil {s : State} (h : s.port = []) : fetch s = none := by
  simp [fetch, h]

theorem step_eq_idle_of_fetch_none {s : State} (h : fetch s = none) : step s = idle s := by
  simp [step, h]

theorem idle_eq_next (s : State) : idle s = .next s := rfl

/-- Settles O7: nothing is fetched from an empty port, so the step is the idle one, which answers the state as it is. -/
theorem idleStepChangesNothing : Obligations.IdleStepChangesNothing := by
  intro s hport
  calc step s = idle s := step_eq_idle_of_fetch_none (fetch_eq_none_of_port_nil hport)
    _ = .next s := idle_eq_next s

end Sys2Proof.Machine

namespace Sys2Proof.Machine

/-! ### Steps and delivered words as states (R260) -/

/-- A delivered word leads to the state `after` names and to no other. -/
theorem eq_after_of_deliver {w : OpWord} {s t : State} (h : deliver w s = .next t) : t = after w s := by
  rw [deliver_next] at h
  exact (Host.Outcome.next.inj h).symm

/-- With a word waiting, a step delivers the oldest one to the block with the rest on its port. -/
theorem step_eq_deliver_of_port_cons {s : State} {w : OpWord} {rest : List OpWord} (h : s.port = w :: rest) :
    step s = deliver w { s with port := rest } := by
  simp [step, fetch, h, deliver_eq]

/-! ### The register map (R60) -/

/-- The address of the register an address names is that address (R60). -/
theorem regAddr_regAt (a : RegAddr) : regAddr (regAt a) = a := by revert a; decide

/-- The register named by a register's address is that register (R60). -/
theorem regAt_regAddr (r : Reg) : regAt (regAddr r) = r := by
  cases r with
  | ocr c => revert c; decide
  | seq i => revert i; decide
  | chmap i => revert i; decide
  | _ => rfl

/-- An address names a register exactly when it is that register's address (R60). -/
theorem regAt_eq_iff {a : RegAddr} {r : Reg} : regAt a = r ↔ a = regAddr r :=
  ⟨fun h => by rw [← h, regAddr_regAt], fun h => by rw [h, regAt_regAddr]⟩

/-- PWMMAX is the one register that is writable at any time (R60). -/
theorem eq_pwmmax_of_access_rw {r : Reg} (h : regAccess r = .rw) : r = .pwmmax := by
  cases r <;> simp_all [regAccess]

/-- Settles O11: the two directions of the map. -/
theorem registerMapIsOneToOne : Obligations.RegisterMapIsOneToOne := ⟨regAddr_regAt, regAt_regAddr⟩

/-! ### A write, a START, a sensor event and a system clock, each outcome said once (R131, R160, R262, R264) -/

/-- The three ways a write ends (R262): refused as read-only, refused as locked, or stored. -/
theorem writeReg_cases (r : Reg) (d : Byte) (s : State) :
    (regAccess r = .ro ∧ writeReg r d s = recordError .rowr s)
    ∨ (regAccess r = .rwl ∧ s.run = true ∧ writeReg r d s = recordError .lockwr s)
    ∨ ((regAccess r = .rw ∨ regAccess r = .rwl ∧ s.run = false)
      ∧ writeReg r d s = { s with conf := s.conf.store r d }) := by
  unfold writeReg
  cases regAccess r with
  | ro => simp
  | rwl => cases s.run <;> simp
  | rw => simp

/-- A write changes the configuration and the diagnostics alone (R262). -/
@[simp] theorem writeReg_frame (r : Reg) (d : Byte) (s : State) :
    (writeReg r d s).cfg = s.cfg ∧ (writeReg r d s).port = s.port ∧ (writeReg r d s).rdata = s.rdata
    ∧ (writeReg r d s).run = s.run ∧ (writeReg r d s).cfgflt = s.cfgflt ∧ (writeReg r d s).sensin = s.sensin
    ∧ (writeReg r d s).spend = s.spend ∧ (writeReg r d s).seqr = s.seqr ∧ (writeReg r d s).timers = s.timers
    ∧ (writeReg r d s).interval = s.interval ∧ (writeReg r d s).est = s.est ∧ (writeReg r d s).interp = s.interp
    ∧ (writeReg r d s).comp = s.comp ∧ (writeReg r d s).out = s.out ∧ (writeReg r d s).shadow = s.shadow := by
  obtain ⟨-, e⟩ | ⟨-, -, e⟩ | ⟨-, e⟩ := writeReg_cases r d s <;> simp [e, recordError]

/-- The diagnostics after a write: ROWR for a read-only register, LOCKWR for a locked one while RUN = 1 (R262). -/
theorem writeReg_diag (r : Reg) (d : Byte) (s : State) :
    (writeReg r d s).diag = { s.diag with
      lockwr := (s.diag.lockwr || (decide (regAccess r = .rwl) && s.run))
      rowr := (s.diag.rowr || decide (regAccess r = .ro)) } := by
  obtain ⟨hro, e⟩ | ⟨hl, hr, e⟩ | ⟨hrw | ⟨hl, hr⟩, e⟩ := writeReg_cases r d s
  · simp [e, hro, recordError]
  · simp [e, hl, hr, recordError]
  · simp [e, hrw]
  · simp [e, hl, hr]

/-- While RUN = 1 a write changes no part of the configuration but PWMMAX (R98, R262). -/
theorem writeReg_conf_running {s : State} (hr : s.run = true) (r : Reg) (d : Byte) :
    (writeReg r d s).conf = { s.conf with pwmmax := (writeReg r d s).conf.pwmmax } := by
  obtain ⟨-, e⟩ | ⟨-, -, e⟩ | ⟨hrw | ⟨-, hst⟩, e⟩ := writeReg_cases r d s
  · simp [e]
  · simp [e]
  · rw [e, eq_pwmmax_of_access_rw hrw]
    rfl
  · simp [hr] at hst

/-- The three ways a START ends (R264): ignored, started, or a configuration fault. -/
theorem startBlock_cases (s : State) :
    ((s.run = true ∨ s.cfgflt = true) ∧ startBlock s = s)
    ∨ (s.run = false ∧ s.cfgflt = false ∧ cfgValid s = true ∧ startBlock s = startAcquire (startState s))
    ∨ (s.run = false ∧ s.cfgflt = false ∧ cfgValid s = false ∧ startBlock s = recordError .config s) := by
  unfold startBlock
  cases s.run <;> cases s.cfgflt <;> cases cfgValid s <;> simp

/-- Taking the position at START leaves what the host wrote, SENSIN, the diagnostics and the shadows (R270). -/
@[simp] theorem startAcquire_frame (s : State) :
    (startAcquire s).cfg = s.cfg ∧ (startAcquire s).port = s.port ∧ (startAcquire s).rdata = s.rdata
    ∧ (startAcquire s).conf = s.conf ∧ (startAcquire s).run = s.run ∧ (startAcquire s).cfgflt = s.cfgflt
    ∧ (startAcquire s).sensin = s.sensin ∧ (startAcquire s).spend = s.spend ∧ (startAcquire s).timers = s.timers
    ∧ (startAcquire s).interval = s.interval ∧ (startAcquire s).est = s.est ∧ (startAcquire s).interp = s.interp
    ∧ (startAcquire s).diag = s.diag ∧ (startAcquire s).shadow = s.shadow := by
  unfold startAcquire
  split <;> simp

/-- A START leaves what the host wrote, SENSIN, the diagnostics and the shadows (R264, R270). -/
@[simp] theorem startBlock_frame (s : State) :
    (startBlock s).cfg = s.cfg ∧ (startBlock s).port = s.port ∧ (startBlock s).rdata = s.rdata
    ∧ (startBlock s).conf = s.conf ∧ (startBlock s).sensin = s.sensin ∧ (startBlock s).diag = s.diag
    ∧ (startBlock s).shadow = s.shadow := by
  obtain ⟨-, e⟩ | ⟨-, -, -, e⟩ | ⟨-, -, -, e⟩ := startBlock_cases s <;> simp [e, recordError]

/-- CFGFLT stays set through a START, which a faulted block ignores (R264). -/
theorem startBlock_cfgflt_of_cfgflt {s : State} (h : s.cfgflt = true) : (startBlock s).cfgflt = true := by
  simp [startBlock, h]

/-- Every field after a sensor code is latched (R160, R161). -/
@[simp] theorem latchSensor_fields (code : Byte) (s : State) :
    (latchSensor code s).cfg = s.cfg ∧ (latchSensor code s).port = s.port ∧ (latchSensor code s).rdata = s.rdata
    ∧ (latchSensor code s).conf = s.conf ∧ (latchSensor code s).run = s.run ∧ (latchSensor code s).cfgflt = s.cfgflt
    ∧ (latchSensor code s).sensin = code
    ∧ (latchSensor code s).spend = (s.spend || notifies s.run s.sensin code)
    ∧ (latchSensor code s).seqr = s.seqr ∧ (latchSensor code s).timers = s.timers
    ∧ (latchSensor code s).interval = s.interval ∧ (latchSensor code s).est = s.est
    ∧ (latchSensor code s).interp = s.interp ∧ (latchSensor code s).comp = s.comp ∧ (latchSensor code s).out = s.out
    ∧ (latchSensor code s).diag
      = { s.diag with slost := (s.diag.slost || (s.spend && notifies s.run s.sensin code)) }
    ∧ (latchSensor code s).shadow = s.shadow := by
  unfold latchSensor
  cases notifies s.run s.sensin code <;> cases s.spend <;> simp [recordError]

/-- A sensor service never lowers SFCNT (R51, R167). -/
theorem le_sensorService_sfcnt (s : State) : s.diag.sfcnt ≤ (sensorService s).diag.sfcnt := by
  have hle : s.diag.sfcnt ≤ satInc8 s.diag.sfcnt := by
    have := s.diag.sfcnt.isLt
    rw [BitVec.le_def, satInc8_toNat]
    omega
  obtain ⟨-, -, e⟩ | ⟨-, -, -, e⟩ | ⟨-, -, -, -, e⟩ | ⟨j, -, -, e⟩ | e := sensorService_cases s <;>
    simp [e, recordError, hle]

/-- A system clock of a running block never lowers SFCNT (R51, R131). -/
theorem le_clockRunning_sfcnt (s : State) : s.diag.sfcnt ≤ (clockRunning s).diag.sfcnt := by
  have htick : s.diag.sfcnt = (clockTick s).diag.sfcnt := by simp
  unfold clockRunning serviceSensor
  split_ifs
  · rw [htick]
    exact le_sensorService_sfcnt { clockTick s with spend := false }
  · exact (BitVec.le_of_eq htick)

/-- The error flags after a system clock: DRIFT alone is set, by the alignment check (R138, R301). -/
theorem clockRunning_flags (s : State) :
    (clockRunning s).diag.illop = s.diag.illop ∧ (clockRunning s).diag.lockwr = s.diag.lockwr
    ∧ (clockRunning s).diag.rowr = s.diag.rowr ∧ (clockRunning s).diag.slost = s.diag.slost
    ∧ (clockRunning s).diag.drift
      = (s.diag.drift || (overflowsB (divisorA s) s.timers && drifted (s.timers.clock (divisorA s)).pha)) := by
  rw [clockRunning_diag]
  simp

/-! ### The invariant at reset (R58, R330) -/

/-- The default tables are ones a model may be built with (R132, R232). -/
theorem default_wf : Config.default.wf = true := by decide +kernel

/-- A reset block meets the invariant, whatever its parameters. -/
theorem atReset_inv {cfg : Config} (h : cfg.wf = true) (port : List OpWord) : Inv (State.atReset cfg port) := by
  constructor <;> simp [State.atReset, h, ZeroOutput, OutputsOff, Outputs.allOff]

/-- Settles O51: every element is 0 at reset, and State.reset is the reset of the default parameters. -/
theorem invariantHoldsAtReset : Obligations.InvariantHoldsAtReset :=
  ⟨fun _ port h => atReset_inv h port, atReset_inv default_wf []⟩

/-! ### The invariant after each operation of the host and the sensor (R160, R262, R264, R266) -/

/-- The invariant does not read the words still to come. -/
theorem withPort_inv {s : State} (h : Inv s) (port : List OpWord) : Inv { s with port := port } :=
  Inv.of_same h rfl rfl rfl rfl .inl rfl rfl rfl rfl rfl rfl rfl

/-- The invariant does not read the read-data output. -/
theorem withRdata_inv {s : State} (h : Inv s) (b : Option Byte) : Inv { s with rdata := b } :=
  Inv.of_same h rfl rfl rfl rfl .inl rfl rfl rfl rfl rfl rfl rfl

/-- A snap read keeps the invariant (R94). -/
theorem snapshot_inv {s : State} (h : Inv s) (r : Reg) : Inv (snapshot r s) := by
  apply Inv.of_same h <;> simp +contextual

/-- CLRDIAG keeps the invariant (R267). -/
theorem clearDiag_inv {s : State} (h : Inv s) : Inv (clearDiag s) := by
  apply Inv.of_same h <;> simp +contextual

/-- Latching a sensor code keeps the invariant: a notification is raised only while RUN = 1 (R160, R162). -/
theorem latchSensor_inv {s : State} (h : Inv s) (code : Byte) : Inv (latchSensor code s) := by
  apply Inv.of_same h <;> simp [notifies]
  tauto

/-- A stopped block keeps the invariant under every configuration: no clause about it reads the configuration (R98). -/
theorem withConf_inv_of_stopped {s : State} (h : Inv s) (hr : s.run = false) (c : Conf) : Inv { s with conf := c } := by
  obtain ⟨params, phases, reference, valid, prescalers, latch, scheduled, position, rate, cold, stopped, unapplied,
    applied⟩ := h
  constructor <;> simp_all [ZeroOutput, OutputsOff]

/-- A write of PWMMAX keeps the invariant, which does not read it (R262). -/
theorem withPwmmax_inv {s : State} (h : Inv s) (d : Byte) : Inv { s with conf.pwmmax := d } :=
  { h with }

/-- A write keeps the invariant: refused, or of PWMMAX, or of a stopped block (R98, R262). -/
theorem writeReg_inv {s : State} (h : Inv s) (r : Reg) (d : Byte) : Inv (writeReg r d s) := by
  obtain ⟨-, e⟩ | ⟨-, -, e⟩ | ⟨hrw | ⟨-, hr⟩, e⟩ := writeReg_cases r d s <;> rw [e]
  · exact recordError_inv h (by simp)
  · exact recordError_inv h (by simp)
  · rw [eq_pwmmax_of_access_rw hrw]
    exact withPwmmax_inv h d
  · exact withConf_inv_of_stopped h hr _

/-- What a successful START writes meets the invariant (R264, R265). -/
theorem startState_inv {s : State} (hwf : s.cfg.wf = true) (hv : cfgValid s = true) (hf : s.cfgflt = false) :
    Inv (startState s) := by
  have hb : s.conf.align.toNat < period := Nat.lt_succ_of_le (cfgValid_bounds hv).2.2
  have hp : ∀ p, divisorA s = some p → 0 < p := fun p hp => (divisorA_bounds hwf hp).1
  constructor <;> simp_all [cfgValid, divisorA, ZeroOutput, OutputsOff, Outputs.allOff]

/-- Taking the position at START keeps the invariant (R270). -/
theorem startAcquire_inv {s : State} (h : Inv s) (hr : s.run = true) : Inv (startAcquire s) := by
  unfold startAcquire
  split
  next j hj =>
    have hlt := (findStep_some hj).1
    exact applyMap_inv (placeAt_inv h hlt) (by simpa) (by simpa)
  next => exact h

/-- Recording a configuration fault of a stopped block keeps the invariant (R264). -/
theorem recordConfig_inv {s : State} (h : Inv s) (hr : s.run = false) : Inv (recordError .config s) :=
  { h with valid := fun hrun => absurd (hr.symm.trans hrun) nofun }

/-- START keeps the invariant (R264). -/
theorem startBlock_inv {s : State} (h : Inv s) : Inv (startBlock s) := by
  obtain ⟨-, e⟩ | ⟨-, hf, hv, e⟩ | ⟨hr, -, -, e⟩ := startBlock_cases s <;> rw [e]
  · exact h
  · exact startAcquire_inv (startState_inv h.params hv hf) (by simp)
  · exact recordConfig_inv h hr

/-- STOP keeps the invariant (R266). -/
theorem stopBlock_inv {s : State} (h : Inv s) : Inv (stopBlock s) := by
  obtain ⟨params, phases, reference, valid, prescalers, latch, scheduled, position, rate, cold, stopped, unapplied,
    applied⟩ := h
  constructor <;> simp_all [ZeroOutput, OutputsOff, Outputs.allOff]

/-! ### The invariant after a system clock, a delivered word and a step (R131, R260) -/

/-- The timers, the alignment check and the tick keep the invariant (R131, R306). -/
theorem clockTick_inv {s : State} (h : Inv s) (hr : s.run = true) : Inv (clockTick s) := by
  have hcheck : Inv (clockCheck s) := by
    unfold clockCheck
    split_ifs
    · exact checkAlignment_inv (clockCount_inv h hr)
    · exact clockCount_inv h hr
  unfold clockTick
  split_ifs
  · exact tickService_inv hcheck (by simpa)
  · exact hcheck

/-- Clearing the latch and servicing it keeps the invariant (R161, R163). -/
theorem serviceSensor_inv {s : State} (h : Inv s) (hr : s.run = true) : Inv (serviceSensor s) := by
  have hclear : Inv { s with spend := false } := Inv.of_same h rfl rfl rfl rfl nofun rfl rfl rfl rfl rfl rfl rfl
  unfold serviceSensor
  split_ifs
  · exact sensorService_inv hclear hr
  · exact h

/-- A system clock of a running block keeps the invariant (R131). -/
theorem clockRunning_inv {s : State} (h : Inv s) (hr : s.run = true) : Inv (clockRunning s) :=
  serviceSensor_inv (clockTick_inv h hr) (by simpa)

/-- Every delivered word keeps the invariant (R260). -/
theorem after_inv {s : State} (h : Inv s) (w : OpWord) : Inv (after w s) := by
  unfold after
  cases decode w with
  | none => exact withRdata_inv (recordError_inv h (e := .illop) nofun) none
  | some i =>
    cases i with
    | wr a d => exact withRdata_inv (writeReg_inv h (regAt a) d) none
    | rd a => exact withRdata_inv (snapshot_inv h (regAt a)) _
    | nop => exact withRdata_inv h none
    | start => exact withRdata_inv (startBlock_inv h) none
    | stop => exact withRdata_inv (stopBlock_inv h) none
    | clrdiag => exact withRdata_inv (clearDiag_inv h) none
    | evtSysclk =>
      by_cases hr : s.run = true
      · simpa [hr] using withRdata_inv (clockRunning_inv h hr) none
      · simpa [hr] using withRdata_inv h none
    | evtSensor code => exact withRdata_inv (latchSensor_inv h code) none
    | evtReset => exact atReset_inv h.params s.port

/-- Settles O52: an idle step answers the state as it is, and every other one delivers a word, after which the
invariant holds. -/
theorem everyStepKeepsTheInvariant : Obligations.EveryStepKeepsTheInvariant := by
  intro s t h hstep
  cases hport : s.port with
  | nil =>
    rw [idleStepChangesNothing s hport] at hstep
    exact Host.Outcome.next.inj hstep ▸ h
  | cons w rest =>
    rw [step_eq_deliver_of_port_cons hport] at hstep
    rw [eq_after_of_deliver hstep]
    exact after_inv (withPort_inv h rest) w

/-! ### The bytes a store changes (R48, R61, R69, R262) -/

/-- The low byte of a joined 9-bit value (R69). -/
@[simp] theorem lo9_join9 (top : Bool) (low : Byte) : lo9 (join9 top low) = low := by revert top low; decide

/-- The high byte of a joined 9-bit value is its top bit (R69). -/
@[simp] theorem hi9_join9 (top : Bool) (low : Byte) : hi9 (join9 top low) = (BitVec.ofBool top).setWidth 8 := by
  revert top low; decide

/-- The high byte of a 9-bit value is its top bit (R69). -/
theorem hi9_eq_top (v : BitVec 9) : hi9 v = (BitVec.ofBool (v.getLsbD 8)).setWidth 8 := by revert v; decide

/-- PHMODE as a bit and back (R48). -/
@[simp] theorem PhaseMode.bit_ofBit (b : Bool) : (PhaseMode.ofBit b).bit = b := by cases b <;> rfl

/-- FPMODE as a bit and back (R48). -/
@[simp] theorem FpMode.bit_ofBit (b : Bool) : (FpMode.ofBit b).bit = b := by cases b <;> rfl

/-- CTRL after a write of `d` reads its low five bits (R61). -/
theorem ctrlByte_setCtrl (d : Byte) (s : State) : ctrlByte { s with conf := s.conf.setCtrl d } = d &&& 0x1F := by
  simp only [ctrlByte, Conf.setCtrl, PhaseMode.bit_ofBit, FpMode.bit_ofBit]
  revert d
  decide

/-- The byte a register returns after a write of `d` to it: the reserved bits of CTRL and ALIGN_HI read 0 (R61, R69). -/
def readBack (r : Reg) (d : Byte) : Byte :=
  if r = .ctrl then d &&& 0x1F else if r = .alignHi then d &&& 0x01 else d

/-- A register that is not read-only reads back what was stored in it (R99, R262). -/
theorem regValue_store_same {r : Reg} (h : regAccess r ≠ .ro) (d : Byte) (s : State) :
    regValue r { s with conf := s.conf.store r d } = readBack r d := by
  cases r with
  | ctrl => exact ctrlByte_setCtrl d s
  | seqlen | phofs | pwmmax => rfl
  | alignLo => exact lo9_join9 _ d
  | alignHi =>
    have hbit : (BitVec.ofBool (d.getLsbD 0)).setWidth 8 = d &&& 0x01 := by revert d; decide
    exact (hi9_join9 _ _).trans hbit
  | seq i => exact Vector.getElem_set_self _
  | chmap i => exact Vector.getElem_set_self _
  | _ => exact absurd rfl h

/-- A store into one register leaves every other reading as before (R262). -/
theorem regValue_store_other {q r : Reg} (h : q ≠ r) (d : Byte) (s : State) :
    regValue q { s with conf := s.conf.store r d } = regValue q s := by
  cases r with
  | ctrl | seqlen | phofs | pwmmax =>
    cases q <;> simp_all only [ne_eq, not_true_eq_false, Conf.store, regValue] <;> rfl
  | alignLo =>
    cases q with
    | alignLo => exact absurd rfl h
    | alignHi => exact (hi9_join9 _ _).trans (hi9_eq_top s.conf.align).symm
    | _ => rfl
  | alignHi =>
    cases q with
    | alignHi => exact absurd rfl h
    | alignLo => exact lo9_join9 _ _
    | _ => rfl
  | seq i =>
    cases q with
    | seq j => exact Vector.getElem_set_ne i.isLt j.isLt fun hij => h (congrArg Reg.seq (BitVec.eq_of_toNat_eq hij.symm))
    | _ => rfl
  | chmap i =>
    cases q with
    | chmap j => exact Vector.getElem_set_ne i.isLt j.isLt fun hij => h (congrArg Reg.chmap (BitVec.eq_of_toNat_eq hij.symm))
    | _ => rfl
  | _ => rfl

/-- Settles O15: an accepted write stores its byte, and addresses stand for registers one to one. -/
theorem writtenByteReadsBack : Obligations.WrittenByteReadsBack := by
  intro s a d hacc
  have hw : writeReg (regAt a) d s = { s with conf := s.conf.store (regAt a) d } := by
    obtain ⟨hro, -⟩ | ⟨hl, hr, -⟩ | ⟨-, e⟩ := writeReg_cases (regAt a) d s
    · simp [hro] at hacc
    · simp [hl, hr] at hacc
    · exact e
  have hro : regAccess (regAt a) ≠ .ro := by
    intro h
    simp [h] at hacc
  refine ⟨_, rfl, ?_, fun b hb => ?_⟩
  · have hback := regValue_store_same hro d { s with rdata := none }
    simp only [readBack, regAt_eq_iff, regAddr] at hback
    rw [hw]
    exact hback
  · rw [hw]
    have hne : regAt b ≠ regAt a := fun h => hb (by rw [← regAddr_regAt b, h, regAddr_regAt])
    have hrd : regValue (regAt b) { s with rdata := none } = regValue (regAt b) s := by
      cases regAt b <;> rfl
    exact (regValue_store_other hne d { s with rdata := none }).trans hrd

/-! ### The read data, the configuration and the diagnostics after a delivered word (R53, R98, R301) -/

/-- Settles O10: RD alone ends with a byte read, the one its register has before the read. -/
theorem readDataIsSetByReadsAlone : Obligations.ReadDataIsSetByReadsAlone := by
  intro w s t h
  rw [eq_after_of_deliver h]
  refine ⟨fun a ha => by simp [after, ha], fun hne => ?_⟩
  unfold after
  cases hd : decode w with
  | none => rfl
  | some i =>
    cases i with
    | rd a => exact absurd hd (hne a)
    | _ => rfl

/-- No delivered word changes the build parameters (R10, R55). -/
theorem after_cfg (w : OpWord) (s : State) : (after w s).cfg = s.cfg := by
  unfold after
  cases decode w with
  | none => rfl
  | some i =>
    cases i with
    | evtSysclk => cases hr : s.run <;> simp
    | evtReset => rfl
    | _ => simp

/-- A delivered word that is no WR and no reset leaves the configuration (R98). -/
theorem after_conf {w : OpWord} (hwr : ∀ a d, decode w ≠ some (.wr a d)) (hreset : decode w ≠ some .evtReset) (s : State) :
    (after w s).conf = s.conf := by
  unfold after
  cases hd : decode w with
  | none => rfl
  | some i =>
    cases i with
    | wr a d => exact absurd hd (hwr a d)
    | evtSysclk => cases hr : s.run <;> simp
    | evtReset => exact absurd hd hreset
    | _ => simp

/-- Settles O17: the one word that writes the configuration is WR, and of a running block it writes PWMMAX alone. -/
theorem configurationIsLockedWhileRunning : Obligations.ConfigurationIsLockedWhileRunning := by
  intro w s t h
  rw [eq_after_of_deliver h]
  refine ⟨after_cfg w s, fun hwr hreset => after_conf hwr hreset s, fun hr hreset => ?_⟩
  by_cases hwr : ∃ a d, decode w = some (.wr a d)
  · obtain ⟨a, d, hd⟩ := hwr
    simpa [after, hd] using writeReg_conf_running hr (regAt a) d
  · push Not at hwr
    rw [after_conf hwr hreset s]

/-- Settles O57, operation by operation. -/
theorem errorsAreStickyAndSetByTheirOperation : Obligations.ErrorsAreStickyAndSetByTheirOperation := by
  intro w s t h hclr hreset
  rw [eq_after_of_deliver h]
  cases hd : decode w with
  | none => simp [after, hd]
  | some i =>
    cases i with
    | wr a d => simp [after, hd, writeReg_diag]
    | rd a => simp [after, hd]
    | nop => simp [after, hd]
    | start => simpa [after, hd] using startBlock_cfgflt_of_cfgflt
    | stop => simp [after, hd]
    | clrdiag => exact absurd hd hclr
    | evtSysclk =>
      cases hr : s.run with
      | false => simp [after, hd, hr]
      | true => simp +contextual [after, hd, hr, clockRunning_flags, le_clockRunning_sfcnt]
    | evtSensor code => simp [after, hd, notifies, Bool.and_assoc, Bool.and_left_comm]
    | evtReset => exact absurd hd hreset

end Sys2Proof.Machine

namespace Sys2Proof.Machine

/-! ### Reading a register twice (R94, R96, R261) -/

/-- No register returns the read-data output (R53, R261). -/
theorem regValue_withRdata (r : Reg) (b : Option Byte) (s : State) : regValue r { s with rdata := b } = regValue r s := by
  cases r <;> rfl

/-- After a read, which is a snap of live bytes or has no side effect, its register returns the same byte (R94, R96). -/
theorem regValue_snapshot_same (r : Reg) (b : Option Byte) (s : State) :
    regValue r { snapshot r s with rdata := b } = regValue r s := by
  cases r <;> rfl

/-- A second snap with nothing in between loads the shadow with what it holds (R94, R96). -/
theorem snapshot_snapshot_same (r : Reg) (b : Option Byte) (s : State) :
    snapshot r { snapshot r s with rdata := b } = { snapshot r s with rdata := b } := by
  cases r <;> rfl

/-! ### Writing a register twice (R96, R262) -/

/-- A second store of the same byte changes nothing (R262). -/
theorem Conf.store_store (r : Reg) (d : Byte) (c : Conf) : (c.store r d).store r d = c.store r d := by
  cases r with
  | alignLo =>
    have htop : ∀ top, (join9 top d).getLsbD 8 = top := by
      revert d
      decide
    simp only [Conf.store, Conf.setAlignLo, htop]
  | alignHi => simp [Conf.store, Conf.setAlignHi]
  | seq i => simp [Conf.store]
  | chmap i => simp [Conf.store]
  | _ => rfl

/-- Recording an error twice is recording it once, but for the counted sensor fault (R51, R300). -/
theorem recordError_recordError {e : ErrorCode} (h : e ≠ .sensor) (s : State) :
    recordError e (recordError e s) = recordError e s := by
  cases e with
  | sensor => exact absurd rfl h
  | _ => rfl

/-- A second write of the same byte ends as the first one did and changes nothing more (R262). -/
theorem writeReg_writeReg (r : Reg) (d : Byte) (s : State) : writeReg r d (writeReg r d s) = writeReg r d s := by
  have hrun : (writeReg r d s).run = s.run := by simp
  obtain ⟨hro, e⟩ | ⟨hl, hr, e⟩ | ⟨hacc, e⟩ := writeReg_cases r d s
  · rw [e, writeReg, hro]
    exact recordError_recordError (by decide) s
  · rw [e] at hrun ⊢
    simp only [writeReg, hl, hrun, hr, if_true]
    exact recordError_recordError (by decide) s
  · rw [e]
    obtain hrw | ⟨hl, hr⟩ := hacc
    · simp [writeReg, hrw, Conf.store_store]
    · simp [writeReg, hl, hr, Conf.store_store]

/-- A write does not touch the read-data output (R53, R262). -/
theorem writeReg_withRdata (r : Reg) (d : Byte) (b : Option Byte) (s : State) :
    writeReg r d { s with rdata := b } = { writeReg r d s with rdata := b } := by
  unfold writeReg
  cases regAccess r with
  | ro | rw => rfl
  | rwl => by_cases hr : s.run = true <;> simp [hr, recordError]

/-! ### Repeated operations (R96) -/

/-- An operation without read data may be repeated when its update may be, and leaves the read-data output to the end. -/
theorem complete_repeat {f : State → State} (hidem : ∀ s, f (f s) = f s)
    (hrdata : ∀ s, f { s with rdata := none } = { f s with rdata := none }) {s t : State}
    (h : complete (f s) = .next t) : complete (f t) = .next t := by
  obtain rfl := Host.Outcome.next.inj h
  rw [hrdata, hidem]
  rfl

/-- Settles O29: the update of each of the five, made twice, is the update made once. -/
theorem repeatedHostOperationsAreIdempotent : Obligations.RepeatedHostOperationsAreIdempotent := by
  rintro i s t (rfl | rfl | rfl | ⟨a, d, rfl⟩ | ⟨a, rfl⟩) h
  · exact complete_repeat (f := id) (fun _ => rfl) (fun _ => rfl) h
  · exact complete_repeat (f := clearDiag) (fun _ => rfl) (fun _ => rfl) h
  · exact complete_repeat (f := stopBlock) (fun _ => rfl) (fun _ => rfl) h
  · exact complete_repeat (writeReg_writeReg (regAt a) d) (writeReg_withRdata (regAt a) d none) h
  · obtain rfl := Host.Outcome.next.inj h
    rw [exec, execRd, regValue_snapshot_same, snapshot_snapshot_same]
    rfl

/-! ### The shadow registers (R52, R94) -/

/-- The snap register whose read loads what a shadow register returns (R94). Every other register has none. -/
def snapOf : Reg → Option Reg
  | .rateHi => some .rateLo
  | .fpHi => some .fpLo
  | .icHi | .ifLo | .ifHi => some .icLo
  | .ovfHi => some .ovfLo
  | .phaHi => some .phaLo
  | .phbHi => some .phbLo
  | _ => none

/-- A snap register is no shadow register of its own group (R94). -/
theorem snapOf_ne_self (r : Reg) : snapOf r ≠ some r := by
  cases r <;> simp [snapOf]

/-- A shadow register returns nothing but its shadow (R94). -/
theorem regValue_eq_of_shadow_eq {r q : Reg} (h : snapOf r = some q) {s t : State} (hs : s.shadow = t.shadow) :
    regValue r s = regValue r t := by
  cases r with
  | rateHi | fpHi | icHi | ifLo | ifHi | ovfHi | phaHi | phbHi => simp [regValue, hs]
  | _ => exact absurd h nofun

/-- The read of any register but the snap register of its group leaves what a shadow register returns (R94). -/
theorem regValue_snapshot_other {r q p : Reg} (h : snapOf r = some q) (hp : p ≠ q) (s : State) :
    regValue r (snapshot p s) = regValue r s := by
  cases r with
  | rateHi | fpHi | icHi | ifLo | ifHi | ovfHi | phaHi | phbHi =>
    obtain rfl := Option.some.inj h
    cases p <;> simp_all [snapshot, regValue]
  | _ => exact absurd h nofun

/-- After a delivered read every register returns what it returns after the read's side effect (R94, R261). -/
theorem regValue_after_of_rd {w : OpWord} {a : RegAddr} (h : decode w = some (.rd a)) (r : Reg) (s : State) :
    regValue r (after w s) = regValue r (snapshot (regAt a) s) := by
  simp only [after, h]
  exact regValue_withRdata r _ _

/-- A delivered word that is no RD and no reset leaves the shadows (R52, R94). -/
theorem after_shadow {w : OpWord} (hrd : ∀ a, decode w ≠ some (.rd a)) (hreset : decode w ≠ some .evtReset) (s : State) :
    (after w s).shadow = s.shadow := by
  unfold after
  cases hd : decode w with
  | none => rfl
  | some i =>
    cases i with
    | rd a => exact absurd hd (hrd a)
    | evtSysclk => cases hr : s.run <;> simp
    | evtReset => exact absurd hd hreset
    | _ => simp

/-- A delivered word that is no snap of its group and no reset leaves what a shadow register returns (R94). -/
theorem regValue_after_of_snapOf {r : Reg} {lo : RegAddr} (h : snapOf r = some (regAt lo)) {w : OpWord}
    (hlo : decode w ≠ some (.rd lo)) (hreset : decode w ≠ some .evtReset) (s : State) :
    regValue r (after w s) = regValue r s := by
  by_cases hrd : ∃ a, decode w = some (.rd a)
  · obtain ⟨a, ha⟩ := hrd
    have hne : regAt a ≠ regAt lo := by
      intro e
      rw [ha, ← regAddr_regAt a, e, regAddr_regAt] at hlo
      exact hlo rfl
    rw [regValue_after_of_rd ha, regValue_snapshot_other h hne]
  · push Not at hrd
    exact regValue_eq_of_shadow_eq h (after_shadow hrd hreset s)

/-! ### A snap read and the shadow reads after it (R94) -/

/-- The word of a read decodes to that read (R111, R114). -/
@[simp] theorem decode_encode_rd (a : RegAddr) : decode (encode (.rd a)) = some (.rd a) := by
  simp [decode, decodeRead, encode, classField_encodeRead, addrField_encodeRead, dataField_encodeRead]

/-- The bytes that reads of the addresses `his` return in a state (R261). -/
def bytesAt (his : List RegAddr) (s : State) : List Byte := his.map fun a => regValue (regAt a) s

/-- A delivered word that is no snap of their group and no reset leaves what the shadow addresses return (R94). -/
theorem bytesAt_after {lo : RegAddr} {his : List RegAddr} (h : ∀ a ∈ his, snapOf (regAt a) = some (regAt lo)) {w : OpWord}
    (hlo : decode w ≠ some (.rd lo)) (hreset : decode w ≠ some .evtReset) (s : State) :
    bytesAt his (after w s) = bytesAt his s :=
  List.map_congr_left fun a ha => regValue_after_of_snapOf (h a ha) hlo hreset s

/-- The shadow reads return the bytes of the state the first of them is made in, since none of them is a snap (R94). -/
theorem runWords_shadowReads {lo : RegAddr} {his : List RegAddr} (h : ∀ a ∈ his, snapOf (regAt a) = some (regAt lo))
    (s : State) : ∃ t, runWords (his.map fun a => encode (.rd a)) s = some (t, bytesAt his s) := by
  induction his generalizing s with
  | nil => exact ⟨s, rfl⟩
  | cons a his ih =>
    obtain ⟨ha, hhis⟩ := List.forall_mem_cons.1 h
    have hne : a ≠ lo := fun e => snapOf_ne_self _ (e ▸ ha)
    obtain ⟨t, ht⟩ := ih hhis (after (encode (.rd a)) s)
    rw [bytesAt_after hhis (by simpa using hne) (by simp)] at ht
    refine ⟨t, ?_⟩
    rw [List.map_cons, runWords_cons, ht]
    simp [after, bytesAt]

/-- Words that are no snap of the group and no reset may come before the shadow reads, whose bytes end the run's (R94). -/
theorem runWords_append_shadowReads {lo : RegAddr} {his : List RegAddr}
    (h : ∀ a ∈ his, snapOf (regAt a) = some (regAt lo)) {ws : List OpWord}
    (hws : ∀ w ∈ ws, decode w ≠ some (.rd lo) ∧ decode w ≠ some .evtReset) (s : State) :
    ∃ t mid, runWords (ws ++ his.map fun a => encode (.rd a)) s = some (t, mid ++ bytesAt his s) := by
  induction ws generalizing s with
  | nil =>
    obtain ⟨t, ht⟩ := runWords_shadowReads h s
    exact ⟨t, [], ht⟩
  | cons w ws ih =>
    obtain ⟨⟨hlo, hreset⟩, hrest⟩ := List.forall_mem_cons.1 hws
    obtain ⟨t, mid, ht⟩ := ih hrest (after w s)
    rw [bytesAt_after h hlo hreset] at ht
    exact ⟨t, (after w s).rdata.toList ++ mid, by simp [ht]⟩

/-- A group reads as one value of one instant when the snap byte and the shadow bytes right after it are that value's (R94). -/
theorem snapshotHolds_of_snapOf {lo : RegAddr} {his : List RegAddr} {bytes : State → List Byte}
    (h : ∀ a ∈ his, snapOf (regAt a) = some (regAt lo))
    (hbytes : ∀ s, regValue (regAt lo) s :: bytesAt his (snapshot (regAt lo) s) = bytes s) : SnapshotHolds lo his bytes := by
  intro s ws hws
  obtain ⟨t, mid, ht⟩ := runWords_append_shadowReads h hws (after (encode (.rd lo)) s)
  refine ⟨t, regValue (regAt lo) s, mid, bytesAt his (after (encode (.rd lo)) s), ?_, ?_⟩
  · rw [runWords_cons, ht]
    simp [after]
  · simp only [← hbytes s, bytesAt, regValue_after_of_rd (decode_encode_rd lo)]

/-- A number cut to a byte is its low byte (R12). -/
theorem ofNat8_mod (n : Nat) : BitVec.ofNat 8 (n % 256) = .ofNat 8 n := BitVec.eq_of_toNat_eq (Nat.mod_mod n 256)

/-- The two bytes of a 16-bit value, as numbers (R91). -/
theorem lo16_hi16_eq (v : BitVec 16) : [lo16 v, hi16 v] = [.ofNat 8 v.toNat, .ofNat 8 (v.toNat / 256)] := by
  rw [lo16_eq, hi16_eq, ofNat8_mod]

/-- The two bytes of a 9-bit value, as numbers (R69, R91). -/
theorem lo9_hi9_eq (v : BitVec 9) : [lo9 v, hi9 v] = [.ofNat 8 v.toNat, .ofNat 8 (v.toNat / 256)] := by
  rw [lo9_eq, hi9_eq, ofNat8_mod]

/-- SH_IV holds the high byte of IC, then the two bytes of IF, here as numbers (R52). -/
theorem ivHigh_bytes (e : Estimator) :
    (ivHigh e).extractLsb' 0 8 = .ofNat 8 (e.ic.toNat / 256)
    ∧ (ivHigh e).extractLsb' 8 8 = .ofNat 8 e.ifine.toNat
    ∧ (ivHigh e).extractLsb' 16 8 = .ofNat 8 (e.ifine.toNat / 256) := by
  have hic := e.ic.isLt
  have hif := e.ifine.isLt
  have hnat : (ivHigh e).toNat = e.ifine.toNat * 256 + e.ic.toNat / 256 := by
    rw [ivHigh_eq, BitVec.toNat_ofNat]
    omega
  refine ⟨?_, ?_, ?_⟩ <;> apply BitVec.eq_of_toNat_eq <;>
    simp only [BitVec.extractLsb'_toNat, BitVec.toNat_ofNat, Nat.shiftRight_eq_div_pow, hnat] <;> omega

/-- The snap byte and the three shadow bytes of the IntervalSample, as numbers (R76). -/
theorem sampleBytes_eq (e : Estimator) :
    lo16 e.ic :: [(ivHigh e).extractLsb' 0 8, (ivHigh e).extractLsb' 8 8, (ivHigh e).extractLsb' 16 8]
      = [.ofNat 8 e.ic.toNat, .ofNat 8 (e.ic.toNat / 256), .ofNat 8 e.ifine.toNat, .ofNat 8 (e.ifine.toNat / 256)] := by
  obtain ⟨h1, h2, h3⟩ := ivHigh_bytes e
  rw [h1, h2, h3, lo16_eq, ofNat8_mod]

/-- Settles O13: of each group, the bytes right after the snap, which no word but a snap or a reset changes. -/
theorem snapshotReadsAreOfOneInstant : Obligations.SnapshotReadsAreOfOneInstant :=
  ⟨snapshotHolds_of_snapOf (by decide) fun s => lo16_hi16_eq s.est.rate,
    snapshotHolds_of_snapOf (by decide) fun s => lo16_hi16_eq s.interp.fp,
    snapshotHolds_of_snapOf (by decide) fun s => sampleBytes_eq s.est,
    snapshotHolds_of_snapOf (by decide) fun s => lo16_hi16_eq s.interval.ovfcnt,
    snapshotHolds_of_snapOf (by decide) fun s => lo9_hi9_eq s.timers.pha,
    snapshotHolds_of_snapOf (by decide) fun s => lo9_hi9_eq s.timers.phb⟩

end Sys2Proof.Machine

namespace Sys2Proof

/-! ### The four formats: their fields and their numbers (R113 to R117) -/

/-- CL, CODE and ZERO of format C (R115). -/
@[simp] theorem fields_encodeCommand (code : BitVec 4) :
    classField (encodeCommand code) = 2 ∧ codeField (encodeCommand code) = code ∧ commandZero (encodeCommand code) = 0 := by
  revert code; decide

/-- CL, CODE, ZERO and DATA of format E (R116). -/
@[simp] theorem fields_encodeEvent (code : BitVec 4) (data : Byte) :
    classField (encodeEvent code data) = 3 ∧ codeField (encodeEvent code data) = code
    ∧ eventZero (encodeEvent code data) = 0 ∧ dataField (encodeEvent code data) = data := by
  refine ⟨?_, ?_, ?_, ?_⟩ <;> apply BitVec.eq_of_getLsbD_eq <;> intro i hi <;>
    simp [classField, codeField, eventZero, dataField, encodeEvent] <;> grind

/-- A word is its class, CODE and w[9:0] (R110, R117). -/
theorem word_eq_command_fields (w : OpWord) : w = classField w ++ codeField w ++ commandZero w := by
  apply BitVec.eq_of_getLsbD_eq
  intro i hi
  simp [classField, codeField, commandZero]
  grind

/-- A word is its class, CODE, w[9:8] and its low byte (R110, R117). -/
theorem word_eq_event_fields (w : OpWord) : w = classField w ++ codeField w ++ eventZero w ++ dataField w := by
  apply BitVec.eq_of_getLsbD_eq
  intro i hi
  simp [classField, codeField, eventZero, dataField]
  grind

/-- A word of class 00 is of format W (R113). -/
theorem eq_encodeWrite {w : OpWord} (hc : classField w = 0) : w = encodeWrite (addrField w) (dataField w) :=
  (word_eq_fields w).trans (by rw [hc]; rfl)

/-- A word of class 01 with low byte 0 is of format R (R114). -/
theorem eq_encodeRead {w : OpWord} (hc : classField w = 1) (hd : dataField w = 0) : w = encodeRead (addrField w) :=
  (word_eq_fields w).trans (by rw [hc, hd]; rfl)

/-- A word of class 10 with ZERO field 0 is of format C (R115). -/
theorem eq_encodeCommand {w : OpWord} (hc : classField w = 2) (hz : commandZero w = 0) : w = encodeCommand (codeField w) :=
  (word_eq_command_fields w).trans (by rw [hc, hz]; rfl)

/-- A word of class 11 with ZERO field 0 is of format E (R116). -/
theorem eq_encodeEvent {w : OpWord} (hc : classField w = 3) (hz : eventZero w = 0) :
    w = encodeEvent (codeField w) (dataField w) :=
  (word_eq_event_fields w).trans (by rw [hc, hz]; rfl)

/-- A byte on the right of another is the low digit to base 256. -/
theorem toNat_append_byte (hi lo : Byte) : (hi ++ lo : OpWord).toNat = hi.toNat * 256 + lo.toNat := by
  rw [BitVec.toNat_append, ← Nat.shiftLeft_add_eq_or_of_lt lo.isLt, Nat.shiftLeft_eq]

/-- Format W as a number (R113). -/
@[simp] theorem toNat_encodeWrite (a : RegAddr) (d : Byte) : (encodeWrite a d).toNat = a.toNat * 256 + d.toNat := by
  have ha : ∀ a : RegAddr, (0b00#2 ++ a : Byte).toNat = a.toNat := by decide
  rw [encodeWrite, toNat_append_byte, ha]

/-- Format R as a number (R114). -/
@[simp] theorem toNat_encodeRead (a : RegAddr) : (encodeRead a).toNat = 0x4000 + a.toNat * 256 := by
  revert a; decide

/-- Format C as a number (R115). -/
@[simp] theorem toNat_encodeCommand (code : BitVec 4) : (encodeCommand code).toNat = 0x8000 + code.toNat * 1024 := by
  revert code; decide

/-- Format E as a number (R116). -/
@[simp] theorem toNat_encodeEvent (code : BitVec 4) (data : Byte) :
    (encodeEvent code data).toNat = 0xC000 + code.toNat * 1024 + data.toNat := by
  have hc : ∀ code : BitVec 4, (0b11#2 ++ code ++ 0b00#2 : Byte).toNat * 256 = 0xC000 + code.toNat * 1024 := by decide
  rw [encodeEvent, toNat_append_byte, hc]

/-! ### Decoding and encoding are inverse (R111, R118) -/

/-- Decoding gives back the encoded operation. -/
@[simp] theorem decode_encode (i : Instr) : decode (encode i) = some i := by
  cases i with
  | wr a d => simp [decode, encode, classField_encodeWrite, addrField_encodeWrite, dataField_encodeWrite]
  | rd a => simp [decode, decodeRead, encode, classField_encodeRead, addrField_encodeRead, dataField_encodeRead]
  | nop | start | stop | clrdiag => simp [decode, decodeCommand, encode]
  | evtSysclk | evtSensor | evtReset => simp [decode, decodeEvent, encode]

/-- A word the read format decodes has low byte 0, and its operation is encoded by its address (R114). -/
theorem decodeRead_eq_some {w : OpWord} {i : Instr} (h : decodeRead w = some i) :
    dataField w = 0 ∧ encode i = encodeRead (addrField w) := by
  unfold decodeRead at h
  split_ifs at h with hd
  obtain rfl := Option.some.inj h
  exact ⟨hd, rfl⟩

/-- A word the command format decodes has ZERO field 0, and its operation is encoded by its CODE (R115). -/
theorem decodeCommand_eq_some {w : OpWord} {i : Instr} (h : decodeCommand w = some i) :
    commandZero w = 0 ∧ encode i = encodeCommand (codeField w) := by
  unfold decodeCommand at h
  split_ifs at h with hz hc hc hc hc <;> obtain rfl := Option.some.inj h <;>
    exact ⟨not_not.1 hz, by rw [hc]; rfl⟩

/-- A word the event format decodes has ZERO field 0, and its operation is encoded by its CODE and DATA (R116). -/
theorem decodeEvent_eq_some {w : OpWord} {i : Instr} (h : decodeEvent w = some i) :
    eventZero w = 0 ∧ encode i = encodeEvent (codeField w) (dataField w) := by
  unfold decodeEvent at h
  split_ifs at h with hz hc hd hc hc hd <;> obtain rfl := Option.some.inj h <;> refine ⟨not_not.1 hz, ?_⟩
  · rw [hc, hd]; rfl
  · rw [hc]; rfl
  · rw [hc, hd]; rfl

/-- The only word that decodes to an operation is its encoding. -/
theorem encode_of_decode {w : OpWord} {i : Instr} (h : decode w = some i) : encode i = w := by
  unfold decode at h
  split_ifs at h with h0 h1 h2
  · obtain rfl := Option.some.inj h
    exact (eq_encodeWrite h0).symm
  · obtain ⟨hd, hi⟩ := decodeRead_eq_some h
    exact hi.trans (eq_encodeRead h1 hd).symm
  · obtain ⟨hz, hi⟩ := decodeCommand_eq_some h
    exact hi.trans (eq_encodeCommand h2 hz).symm
  · obtain ⟨hz, hi⟩ := decodeEvent_eq_some h
    have h3 : ∀ c : BitVec 2, c ≠ 0 → c ≠ 1 → c ≠ 2 → c = 3 := by decide
    exact hi.trans (eq_encodeEvent (h3 _ h0 h1 h2) hz).symm

/-- A word decodes to an operation exactly when it is its encoding. -/
theorem decode_eq_some_iff {w : OpWord} {i : Instr} : decode w = some i ↔ encode i = w :=
  ⟨encode_of_decode, fun h => h ▸ decode_encode i⟩

/-- A word is reserved exactly when it is no operation's encoding. -/
theorem decode_eq_none_iff {w : OpWord} : decode w = none ↔ ∀ i, encode i ≠ w := by
  simp [Option.eq_none_iff_forall_ne_some, decode_eq_some_iff]

/-- Settles O2: the fields of a format read back as the operands it was built from. -/
theorem decodeGivesBackTheEncodedOperation : Obligations.DecodeGivesBackTheEncodedOperation :=
  fun i _ => decode_encode i

/-- Settles O3: a word of each format is rebuilt from its fields. -/
theorem onlyTheEncodingDecodes : Obligations.OnlyTheEncodingDecodes :=
  fun _ _ => encode_of_decode

/-- A word with the number of an operation's encoding decodes to that operation. -/
theorem decode_eq_some_of_toNat {w : OpWord} {i : Instr} (h : (encode i).toNat = w.toNat) : decode w = some i :=
  decode_eq_some_iff.2 (BitVec.eq_of_toNat_eq h)

/-- A word with the number of no operation's encoding is reserved. -/
theorem decode_eq_none_of_toNat {w : OpWord} (h : ∀ i, (encode i).toNat ≠ w.toNat) : decode w = none :=
  decode_eq_none_iff.2 fun i hi => h i (congrArg BitVec.toNat hi)

/-- Settles O4: the word of a decoding branch has the number of that operation's encoding, and no encoding has the number of
a reserved branch. -/
theorem decodingIsTheFunctionOfTheWordsNumber : Obligations.DecodingIsTheFunctionOfTheWordsNumber := by
  intro w
  have hw := w.isLt
  split_ifs with hwr hrd hlow hnop hstart hstop hclr hclk hsens hreset
  case neg | neg =>
    apply decode_eq_none_of_toNat
    intro i
    cases i <;> simp [encode] <;> omega
  all_goals
    apply decode_eq_some_of_toNat
    simp [encode]
    omega

/-! ### The opcode map (R118) -/

/-- A field that a mask fixes reads in a word as in the word's masked bits. -/
theorem extractLsb'_eq_of_and_eq {w mask bits : OpWord} {start len : Nat} {field : BitVec len} (h : w &&& mask = bits)
    (hmask : mask.extractLsb' start len = BitVec.allOnes len) (hbits : bits.extractLsb' start len = field) :
    w.extractLsb' start len = field := by
  rw [← hbits, ← h, BitVec.extractLsb'_and, hmask, BitVec.and_allOnes]

/-- A word of a row whose mask fixes every bit is the row's match bits. -/
theorem eq_bits_of_matches {r : OpRow} {w : OpWord} (h : r.matchesWord w = true) (hm : r.mask = BitVec.allOnes 16) :
    r.bits = w := by
  rw [← of_decide_eq_true h, hm, BitVec.and_allOnes]

/-- A word of an operation's row is the encoding of an operation of that row: the row fixes the class, the code and the ZERO
fields, and the other fields are the operands. -/
theorem exists_encode_of_matches {i : Instr} {w : OpWord} (h : (opRow i).matchesWord w = true) :
    ∃ j, encode j = w ∧ opRow j = opRow i := by
  cases i with
  | wr a d =>
    have h : w &&& 0xC000 = 0x0000 := of_decide_eq_true h
    have hc : classField w = 0 := extractLsb'_eq_of_and_eq h (by decide) (by decide)
    exact ⟨.wr (addrField w) (dataField w), (eq_encodeWrite hc).symm, rfl⟩
  | rd a =>
    have h : w &&& 0xC0FF = 0x4000 := of_decide_eq_true h
    have hc : classField w = 1 := extractLsb'_eq_of_and_eq h (by decide) (by decide)
    have hd : dataField w = 0 := extractLsb'_eq_of_and_eq h (by decide) (by decide)
    exact ⟨.rd (addrField w), (eq_encodeRead hc hd).symm, rfl⟩
  | evtSensor code =>
    have h : w &&& 0xFF00 = 0xC400 := of_decide_eq_true h
    have hc : classField w = 3 := extractLsb'_eq_of_and_eq h (by decide) (by decide)
    have hz : eventZero w = 0 := extractLsb'_eq_of_and_eq h (by decide) (by decide)
    have hcode : codeField w = 1 := extractLsb'_eq_of_and_eq h (by decide) (by decide)
    exact ⟨.evtSensor (dataField w), ((eq_encodeEvent hc hz).trans (by rw [hcode]; rfl)).symm, rfl⟩
  | nop => exact ⟨.nop, eq_bits_of_matches h rfl, rfl⟩
  | start => exact ⟨.start, eq_bits_of_matches h rfl, rfl⟩
  | stop => exact ⟨.stop, eq_bits_of_matches h rfl, rfl⟩
  | clrdiag => exact ⟨.clrdiag, eq_bits_of_matches h rfl, rfl⟩
  | evtSysclk => exact ⟨.evtSysclk, eq_bits_of_matches h rfl, rfl⟩
  | evtReset => exact ⟨.evtReset, eq_bits_of_matches h rfl, rfl⟩

/-- The encoding of an operation is a word of its row, which is a row of the map. -/
theorem encode_matches_opRow (i : Instr) : opRow i ∈ opcodeMap ∧ (opRow i).matchesWord (encode i) = true := by
  cases i with
  | wr a d => exact (Laws.EncodesInTable.wr a d).2
  | rd a => exact (Laws.EncodesInTable.rd a).2
  | nop => exact Laws.EncodesInTable.nop.2
  | start => exact Laws.EncodesInTable.start.2
  | stop => exact Laws.EncodesInTable.stop.2
  | clrdiag => exact Laws.EncodesInTable.clrdiag.2
  | evtSysclk => exact Laws.EncodesInTable.evtSysclk.2
  | evtSensor code => exact (Laws.EncodesInTable.evtSensor code).2
  | evtReset => exact Laws.EncodesInTable.evtReset.2

/-- Every row of the map is the row of an operation. -/
theorem exists_opRow_eq_of_mem {r : OpRow} (h : r ∈ opcodeMap) : ∃ i, opRow i = r := by
  have hmap : opcodeMap
      = [.wr 0 0, .rd 0, .nop, .start, .stop, .clrdiag, .evtSysclk, .evtSensor 0, .evtReset].map opRow := rfl
  obtain ⟨i, -, hi⟩ := List.mem_map.1 (hmap ▸ h)
  exact ⟨i, hi⟩

/-- A word matches a row of the map exactly when it decodes to an operation of that row. -/
theorem matchesWord_iff {r : OpRow} (hr : r ∈ opcodeMap) {w : OpWord} :
    r.matchesWord w = true ↔ ∃ i, decode w = some i ∧ opRow i = r := by
  simp only [decode_eq_some_iff]
  constructor
  · intro h
    obtain ⟨i, rfl⟩ := exists_opRow_eq_of_mem hr
    exact exists_encode_of_matches h
  · rintro ⟨i, rfl, rfl⟩
    exact (encode_matches_opRow i).2

/-- Settles O5: the rows a word matches are the rows of the operation it decodes to. -/
theorem opcodeMapDecidesEveryWord : Obligations.OpcodeMapDecidesEveryWord := by
  intro w
  refine ⟨fun i hi => ?_, fun r hr q hq hrw hqw => ?_, fun hnone r hr => ?_, fun hall => ?_⟩
  · obtain rfl := encode_of_decode hi
    exact encode_matches_opRow i
  · obtain ⟨i, hi, rfl⟩ := (matchesWord_iff hr).1 hrw
    obtain ⟨j, hj, rfl⟩ := (matchesWord_iff hq).1 hqw
    rw [Option.some.inj (hi.symm.trans hj)]
  · rw [Bool.eq_false_iff, Ne, matchesWord_iff hr]
    simp [hnone]
  · rw [decode_eq_none_iff]
    rintro i rfl
    obtain ⟨hmem, hmatch⟩ := encode_matches_opRow i
    simp [hall _ hmem] at hmatch

/-- Settles O1: each word is spelled out and decoded. -/
theorem spelledWordsDecode : Obligations.SpelledWordsDecode := by
  unfold Obligations.SpelledWordsDecode
  decide

end Sys2Proof

namespace Sys2Proof.Machine

/-! ### The effect of a delivered word (R112, R260, R262) -/

/-- Settles O9: the effect of R112 is ILLOP and an empty read-data output. -/
theorem reservedWordSetsIllopAlone : Obligations.ReservedWordSetsIllopAlone :=
  fun _ s h => deliver_reserved h s

/-- Of a stopped block, a delivered write of a register that is not read-only stores its byte and does nothing else (R262). -/
theorem after_wr_of_stopped {s : State} (hrun : s.run = false) {r : Reg} (hacc : regAccess r ≠ .ro) (d : Byte) :
    after (encode (.wr (regAddr r) d)) s = { s with rdata := none, conf := s.conf.store r d } := by
  simp only [after, decode_encode, regAt_regAddr]
  obtain ⟨hro, -⟩ | ⟨-, hr, -⟩ | ⟨-, e⟩ := writeReg_cases r d s
  · exact absurd hro hacc
  · simp [hrun] at hr
  · rw [e]

/-! ### The assembler (R121, R122) -/

/-- A line is an assembly error exactly when it is not well formed (R121). -/
theorem assemble_eq_none_iff {l : AsmLine} : assemble l = none ↔ l.wellFormed = false := by
  simp [assemble]

/-- A line with an operation list is well formed, and the list is its expansion (R121, R122). -/
theorem assemble_eq_some_iff {l : AsmLine} {ops : List Instr} :
    assemble l = some ops ↔ l.wellFormed = true ∧ asmExpand l = ops := by
  simp [assemble]

/-- Settles O59: the assembly errors are the operands over their fields' bounds, and below the bounds no bit is cut. -/
theorem assemblerNeverCutsAnOperand : Obligations.AssemblerNeverCutsAnOperand := by
  intro a d
  simp only [assemble_eq_none_iff, assemble_eq_some_iff, AsmLine.wellFormed, AsmLine.addrFits, AsmLine.dataFits,
    Bool.and_eq_false_iff, decide_eq_false_iff_not, Bool.and_eq_true, decide_eq_true_eq, Nat.not_le, true_and]
  rintro ops ⟨⟨ha, hd⟩, rfl⟩
  refine ⟨.ofNat 6 a, .ofNat 8 d, rfl, ?_, ?_⟩
  · exact Nat.mod_eq_of_lt (Nat.lt_succ_of_le ha)
  · exact Nat.mod_eq_of_lt (Nat.lt_succ_of_le hd)

/-! ### The configuration written by a pseudo-instruction (R122, R262) -/

/-- A 9-bit value joined from its two bytes as R122 splits it (R69, R91). -/
theorem join9_bytes (v : Nat) :
    join9 ((BitVec.ofNat 8 (v / 256)).getLsbD 0) (.ofNat 8 (v % 256)) = .ofNat 9 v := by
  have hjoin : ∀ w : BitVec 9, join9 (w.getLsbD 8) (lo9 w) = w := by decide
  have htop : (BitVec.ofNat 8 (v / 256)).getLsbD 0 = (BitVec.ofNat 9 v).getLsbD 8 := by
    simp only [BitVec.getLsbD_ofNat, show v / 256 = v / 2 ^ 8 from rfl, Nat.testBit_div_two_pow]
    rfl
  have hlow : BitVec.ofNat 8 (v % 256) = lo9 (.ofNat 9 v) := by
    rw [lo9_eq, BitVec.toNat_ofNat, Nat.mod_mod_of_dvd v (by decide)]
  rw [htop, hlow, hjoin]

/-- Storing both bytes of ALIGN stores it whole (R69, R262). -/
theorem store_align_bytes (v : Nat) (c : Conf) :
    (c.store .alignLo (.ofNat 8 (v % 256))).store .alignHi (.ofNat 8 (v / 256)) = { c with align := .ofNat 9 v } := by
  simp only [Conf.store, Conf.setAlignLo, Conf.setAlignHi, lo9_join9, join9_bytes]

/-- The expansion of WR16 ALIGN_LO stores ALIGN whole in a stopped block and changes nothing else (R122, R262). -/
theorem finalOf_wr16_align {s : State} (hrun : s.run = false) (v : Nat) :
    finalOf ((asmExpand (.wr16 0x08 v)).map encode) s = some { s with rdata := none, conf.align := .ofNat 9 v } := by
  have hops : asmExpand (.wr16 0x08 v)
      = [.wr (regAddr .alignLo) (.ofNat 8 (v % 256)), .wr (regAddr .alignHi) (.ofNat 8 (v / 256))] := rfl
  simp only [hops, List.map_cons, List.map_nil, finalOf_cons, finalOf_nil]
  rw [after_wr_of_stopped hrun (by decide), after_wr_of_stopped (by exact hrun) (by decide)]
  simp only [store_align_bytes]

/-- `WR SEQ[i], c` as an operation (R60, R122). -/
theorem asmWrite_seq (i : StepIx) (c : Byte) : asmWrite (0x20 + i.toNat) c.toNat = .wr (regAddr (.seq i)) c := by
  have haddr : ∀ i : StepIx, BitVec.ofNat 6 (0x20 + i.toNat) = regAddr (.seq i) := by decide
  rw [asmWrite, haddr, BitVec.ofNat_toNat, BitVec.setWidth_eq]

/-- `WR SEQ[i], c` of a stopped block stores the code (R122, R262). -/
theorem after_asmWrite_seq {s : State} (hrun : s.run = false) (i : StepIx) (c : Byte) :
    after (encode (asmWrite (0x20 + i.toNat) c.toNat)) s
      = { s with rdata := none, conf.seq := s.conf.seq.set i.toNat c i.isLt } := by
  rw [asmWrite_seq, after_wr_of_stopped hrun (by simp [regAccess])]
  rfl

/-- The first entries up to a stored one are those before it and then itself (R38). -/
theorem take_set_seq (i : StepIx) (c : Byte) (seq : Vector Byte 16) :
    (seq.set i.toNat c i.isLt).toList.take (i.toNat + 1) = seq.toList.take i.toNat ++ [c] := by
  have hlt : i.toNat < seq.toList.length := Vector.length_toList ▸ i.isLt
  rw [Vector.toList_set, List.take_add_one, List.take_set_of_le le_rfl, List.getElem?_set_self hlt]
  rfl

/-- The writes of `codes` from SEQ[k] on, of a stopped block, keep SEQLEN and follow the first `k` entries with the codes
(R122, R262). -/
theorem finalOf_asmWriteAll_seq (codes : List Byte) {k : Nat} (hk : k + codes.length ≤ 16) {s : State} (hrun : s.run = false) :
    ∃ t, finalOf ((asmWriteAll (0x20 + k) (codes.map BitVec.toNat)).map encode) s = some t
      ∧ t.conf.seqlen = s.conf.seqlen
      ∧ t.conf.seq.toList.take (k + codes.length) = s.conf.seq.toList.take k ++ codes := by
  induction codes generalizing k s with
  | nil => exact ⟨s, rfl, rfl, by simp⟩
  | cons c cs ih =>
    rw [List.length_cons] at hk
    obtain ⟨i, rfl⟩ : ∃ i : StepIx, i.toNat = k := ⟨.ofNat 4 k, Nat.mod_eq_of_lt (by omega)⟩
    have hfirst := after_asmWrite_seq hrun i c
    obtain ⟨t, ht, hlen, hseq⟩ := ih (k := i.toNat + 1) (by omega)
      (s := { s with rdata := none, conf.seq := s.conf.seq.set i.toNat c i.isLt }) hrun
    refine ⟨t, ?_, hlen, ?_⟩
    · simpa only [List.map_cons, asmWriteAll, finalOf_cons, hfirst, Nat.add_assoc] using ht
    · calc t.conf.seq.toList.take (i.toNat + (c :: cs).length)
          = t.conf.seq.toList.take (i.toNat + 1 + cs.length) := by
            rw [List.length_cons, Nat.add_right_comm, Nat.add_assoc]
        _ = s.conf.seq.toList.take i.toNat ++ [c] ++ cs := by rw [hseq, take_set_seq]
        _ = s.conf.seq.toList.take i.toNat ++ c :: cs := (List.append_cons ..).symm

/-- The expansion of CFGSEQ with at most 16 codes, of a stopped block, sets SEQLEN to their number and the entries to them
(R122, R262). -/
theorem finalOf_cfgseq {s : State} (hrun : s.run = false) {codes : List Byte} (hle : codes.length ≤ 16) :
    ∃ t, finalOf ((asmExpand (.cfgseq (codes.map BitVec.toNat))).map encode) s = some t
      ∧ t.conf.seqlen.toNat = codes.length ∧ t.conf.entries = codes := by
  have hops : asmExpand (.cfgseq (codes.map BitVec.toNat))
      = .wr (regAddr .seqlen) (.ofNat 8 codes.length) :: asmWriteAll 0x20 (codes.map BitVec.toNat) := by
    rw [asmExpand, List.length_map]
    rfl
  obtain ⟨t, ht, hlen, hseq⟩ := finalOf_asmWriteAll_seq codes (k := 0) (by omega)
    (s := { s with rdata := none, conf.seqlen := .ofNat 8 codes.length }) hrun
  have hnum : t.conf.seqlen.toNat = codes.length := by
    rw [hlen]
    exact Nat.mod_eq_of_lt (by omega)
  refine ⟨t, ?_, hnum, ?_⟩
  · rw [hops, List.map_cons, finalOf_cons, after_wr_of_stopped hrun (by decide)]
    exact ht
  · simpa [Conf.entries, hnum] using hseq

/-- Settles O60: WR16 stores the two bytes of ALIGN, and CFGSEQ stores SEQLEN and then the codes one after the other. -/
theorem pseudoInstructionsConfigureTheBlock : Obligations.PseudoInstructionsConfigureTheBlock := by
  refine ⟨fun s v hrun hv => ⟨_, _, ?_, finalOf_wr16_align hrun v, rfl⟩, fun s codes hrun hpos hle => ?_⟩
  · exact assemble_eq_some_iff.2 ⟨by simp [AsmLine.wellFormed, hv], rfl⟩
  · have hfits : ∀ c ∈ codes, c.toNat ≤ 0xFF := fun c _ => Nat.le_of_lt_succ c.isLt
    obtain ⟨t, ht, hlen, hentries⟩ := finalOf_cfgseq hrun hle
    exact ⟨_, t, assemble_eq_some_iff.2 ⟨by simpa [AsmLine.wellFormed, AsmLine.dataFits, hpos, hle] using hfits, rfl⟩,
      ht, hlen, hentries⟩

end Sys2Proof.Machine

namespace Sys2Proof.Machine

/-! ### The timers of one system clock as numbers (R131, R133 to R137) -/

/-- Timer A advances in the clock in which its prescaler wraps (R131, R133). -/
theorem advancesA_iff {p : Nat} {t : Timers} : advancesA (some p) t = true ↔ t.psca.toNat + 1 = p := by
  simp [advancesA, pscWraps, eq_comm]

/-- Timer B advances in the clock in which no skew is left and its prescaler wraps (R131, R133, R137). -/
theorem advancesB_iff {p : Nat} {t : Timers} :
    advancesB (some p) t = true ↔ t.skew = 0 ∧ t.pscb.toNat + 1 = p := by
  simp [advancesB, pscWraps, eq_comm (a := p)]

/-- Timer A's phase after one clock: a phase step when its prescaler wraps (R131, R133, R134). -/
theorem clock_pha_toNat (p : Nat) (t : Timers) :
    (t.clock (some p)).pha.toNat = if t.psca.toNat + 1 = p then (t.pha.toNat + 1) % period else t.pha.toNat := by
  simp only [Timers.clock, advancesA_iff, apply_ite BitVec.toNat, nextPhase_toNat]

/-- Timer B's phase after one clock: a phase step when no skew is left and its prescaler wraps (R131, R133, R134, R137). -/
theorem clock_phb_toNat (p : Nat) (t : Timers) :
    (t.clock (some p)).phb.toNat
      = if t.skew = 0 ∧ t.pscb.toNat + 1 = p then (t.phb.toNat + 1) % period else t.phb.toNat := by
  simp only [Timers.clock, advancesB_iff, apply_ite BitVec.toNat, nextPhase_toNat]

/-- Timer A's prescaler after one clock (R131, R133). -/
theorem clock_psca_toNat {p : Nat} (hp : p ≤ 1024) {t : Timers} (h : t.psca.toNat < p) :
    (t.clock (some p)).psca.toNat = (t.psca.toNat + 1) % p :=
  pscNext_toNat hp h

/-- Timer B's prescaler after one clock: it runs only once no skew is left (R131, R133, R137). -/
theorem clock_pscb_toNat {p : Nat} (hp : p ≤ 1024) {t : Timers} (h : t.pscb.toNat < p) :
    (t.clock (some p)).pscb.toNat = if t.skew = 0 then (t.pscb.toNat + 1) % p else t.pscb.toNat := by
  rw [← pscNext_toNat hp h]
  exact apply_ite BitVec.toNat ..

/-- One phase step leads to TOP from phase 254 alone (R134, R135). -/
theorem isTop_nextPhase (p : Phase) : isTop (nextPhase p) = decide (p.toNat = 254) := by
  revert p; decide

/-- When Timer A reaches TOP (R133, R135). -/
theorem topsA_iff {p : Nat} {t : Timers} :
    topsA (some p) t = true ↔ t.psca.toNat + 1 = p ∧ t.pha.toNat = 254 := by
  rw [topsA, Bool.and_eq_true, ← advancesA_iff]
  refine and_congr_right fun h => ?_
  simp [Timers.clock, h, isTop_nextPhase]

/-- When Timer B reaches TOP (R133, R135, R137). -/
theorem topsB_iff {p : Nat} {t : Timers} :
    topsB (some p) t = true ↔ t.skew = 0 ∧ t.pscb.toNat + 1 = p ∧ t.phb.toNat = 254 := by
  rw [topsB, Bool.and_eq_true, ← and_assoc, ← advancesB_iff]
  refine and_congr_right fun h => ?_
  simp [Timers.clock, h, isTop_nextPhase]

/-- The same as `overflowsB_iff`, for rewriting (R133, R135, R137). -/
theorem overflowsB_eq (p : Nat) (t : Timers) :
    overflowsB (some p) t = decide (t.skew = 0 ∧ t.pscb.toNat + 1 = p ∧ (t.phb.toNat + 1) % period = 0) :=
  Bool.eq_iff_iff.2 (overflowsB_iff.trans decide_eq_true_iff.symm)

/-- The compare value of a channel after the loads at TOP (R136). -/
theorem load_ocr (topA topB : Bool) (o : Outputs) (c : Chan) :
    (o.load topA topB).ocr[c] = if (if c.val < 2 then topA else topB) = true then o.ocrbuf[c] else o.ocr[c] := by
  simp [Outputs.load]

/-! ### One system clock (R131, R136, R138, R144) -/

/-- Settles O31: the stopped case of the clock. -/
theorem clockOfAStoppedBlockChangesNothing : Obligations.ClockOfAStoppedBlockChangesNothing :=
  fun _ hrun => exec_clock_stopped hrun

/-- Settles O32: the four counters as numbers, and what the clock leaves. -/
theorem clockAdvancesTheTimers : Obligations.ClockAdvancesTheTimers := by
  intro s P hrun hdiv hP hpsca hpscb
  obtain ⟨hillop, hlockwr, hrowr, hslost, -⟩ := clockRunning_flags s
  have hpha := clock_pha_toNat P s.timers
  have hphb := clock_phb_toNat P s.timers
  have hpsca' := clock_psca_toNat hP hpsca
  have hpscb' := clock_pscb_toNat hP hpscb
  refine ⟨_, exec_clock_running hrun, ?_⟩
  simp only [clockRunning_frame, hdiv, hpsca', hpha, hrun, hillop, hlockwr, hrowr, hslost, true_and, and_self, and_true]
  refine ⟨fun hskew => ?_, fun hskew => ?_⟩
  · simp only [hskew, true_and, if_true] at hphb hpscb'
    exact ⟨by simp [Timers.clock, hskew], hpscb', hphb⟩
  · refine ⟨Nat.sub_add_cancel (Nat.one_le_iff_ne_zero.2 hskew), ?_, ?_⟩
    · simp [Timers.clock, hskew]
    · simp [Timers.clock, advancesB, hskew]

/-- Settles O33: nothing in a system clock writes OCR but the loads at TOP, which both timers reach from phase 254. -/
theorem compareValuesLoadAtTop : Obligations.CompareValuesLoadAtTop := by
  intro s P hrun hdiv
  refine ⟨_, exec_clock_running hrun, fun c hc => ?_, fun c hc => ?_⟩
  · simp only [clockRunning_ocr, load_ocr, hdiv, if_pos hc, topsA_iff]
  · simp only [clockRunning_ocr, load_ocr, hdiv, if_neg (Nat.not_lt.2 hc), topsB_iff]

/-- Settles O34: the alignment check is made in the clock in which Timer B overflows. -/
theorem alignmentCheckSetsDrift : Obligations.AlignmentCheckSetsDrift := by
  intro s P hrun hdiv
  obtain ⟨-, -, -, -, hdrift⟩ := clockRunning_flags s
  refine ⟨_, exec_clock_running hrun, ?_⟩
  simp only [hdrift, clockRunning_frame, hdiv, drifted, overflowsB_eq]

/-! ### Between two ticks (R131, R305) -/

/-- A clock without a tick, before the sensor service: the timers, the loads at TOP and the alignment check (R131). -/
theorem clockCheck_between {s : State} (h : ticks s = false) :
    clockCheck s = { s with
      timers := s.timers.clock (divisorA s)
      out := s.out.load (topsA (divisorA s) s.timers) (topsB (divisorA s) s.timers)
      diag.drift := (clockCheck s).diag.drift } := by
  have hcount : clockCount s = clockTimers s := by simp [clockCount, h]
  unfold clockCheck checkAlignment
  rw [hcount]
  split_ifs <;> rfl

/-- Settles O35: without a tick and a notification neither service runs. -/
theorem clockBetweenTicksLeavesTheRest : Obligations.ClockBetweenTicksLeavesTheRest := by
  intro s P hrun hdiv hspend hno
  have hticks : ticks s = false := Bool.eq_false_iff.2 (mt (ticks_iff hdiv).1 hno)
  refine ⟨_, exec_clock_running hrun, ?_⟩
  rw [clockRunning_quiet hspend, clockTick_between hticks, clockCheck_between hticks]
  rfl

/-! ### The tick (R143, R233 to R236) -/

/-- The advance while the sum fits 16 bits (R236). -/
theorem fpNext_of_le {fp rate : BitVec 16} (h : fpSum fp rate ≤ 0xFFFF) (mode : FpMode) :
    fpNext mode fp rate = .ofNat 16 (fpSum fp rate) :=
  if_neg fun hover => Nat.not_lt.2 h (of_decide_eq_true hover)

/-- The advance once the sum passes 0xFFFF (R236). -/
theorem fpNext_of_lt {fp rate : BitVec 16} (h : 0xFFFF < fpSum fp rate) :
    fpNext .wrap fp rate = .ofNat 16 (fpSum fp rate - 0x10000) ∧ fpNext .saturate fp rate = 0xFFFF :=
  ⟨if_pos (decide_eq_true h), if_pos (decide_eq_true h)⟩

/-- In WRAP the advance is the sum modulo 65536 (R236). -/
theorem fpNext_wrap (fp rate : BitVec 16) : fpNext .wrap fp rate = fp + rate := by
  have hf := fp.isLt
  have hr := rate.isLt
  apply BitVec.eq_of_toNat_eq
  rw [BitVec.toNat_add]
  obtain h | h := le_or_gt (fpSum fp rate) 0xFFFF
  · rw [fpNext_of_le h, BitVec.toNat_ofNat, fpSum]
  · rw [(fpNext_of_lt h).1, BitVec.toNat_ofNat]
    unfold fpSum at *
    omega

/-- In SATURATE the advance is the sum, at most 0xFFFF (R236). -/
theorem fpNext_saturate_toNat (fp rate : BitVec 16) :
    (fpNext .saturate fp rate).toNat = min (fp.toNat + rate.toNat) 0xFFFF := by
  obtain h | h := le_or_gt (fpSum fp rate) 0xFFFF
  · rw [fpNext_of_le h, BitVec.toNat_ofNat]
    unfold fpSum at *
    omega
  · rw [(fpNext_of_lt h).2]
    exact (Nat.min_eq_right (Nat.le_of_lt h)).symm

/-- The entry read for a position, out of the list of entries (R13, R231). -/
theorem envAt_hi16 (cfg : Config) (fp : BitVec 16) :
    envAt cfg (hi16 fp) = cfg.envRom.toList.getD (fp.toNat / 256) 0 := by
  have hlt : fp.toNat / 256 < 256 := by have := fp.isLt; omega
  have hidx : (hi16 fp).toNat = fp.toNat / 256 := by rw [hi16_eq, BitVec.toNat_ofNat, Nat.mod_eq_of_lt hlt]
  simp [envAt, hidx, List.getD, hlt]

/-- The duty of a tick as a number (R233, R234, R235). -/
theorem tickDuty_toNat (s : State) :
    (tickDuty s).toNat = if s.est.ivalid = true
      then (s.conf.pwmmax.toNat * (s.cfg.envRom.toList.getD (s.interp.fp.toNat / 256) 0).toNat + 127) / 255 else 0 := by
  unfold tickDuty
  split_ifs
  · rw [dutyOf_toNat, envAt_hi16]
  · rfl

/-- Settles O36: the clock is the tick service after the timers and the overflow count. -/
theorem tickCountsAndMovesTheInterpolator : Obligations.TickCountsAndMovesTheInterpolator := by
  intro s P hrun hdiv hspend hpsca hpha
  have hticks : ticks s = true := (ticks_iff hdiv).2 ⟨hpsca, hpha⟩
  have hduty : tickDuty (clockCheck s) = tickDuty s := by simp [tickDuty]
  have hclock : clockRunning s = tickService (clockCheck s) := by
    rw [clockRunning_quiet hspend, clockTick_tick hticks]
  refine ⟨_, exec_clock_running hrun, ?_⟩
  simp only [hclock, tickService_frame, tickService_interp, clockCheck_fields, hticks, if_true, satInc16_toNat, hduty,
    tickDuty_toNat, fpOverruns, fpSum, true_and, gt_iff_lt]
  exact ⟨fun hmode => by rw [hmode, fpNext_wrap], fun hmode => by rw [hmode, fpNext_saturate_toNat]⟩

/-! ### What moves the timers (R139, R144) -/

/-- Settles O58, operation by operation. -/
theorem timersMoveOnlyWithTheClock : Obligations.TimersMoveOnlyWithTheClock := by
  intro w s t h hreset hclock hstart
  rw [eq_after_of_deliver h]
  cases hd : decode w with
  | none => simp [after, hd]
  | some i =>
    cases i with
    | start => simp [after, hd, startBlock, hstart hd]
    | evtSysclk => simp [after, hd, hclock hd]
    | evtReset => exact absurd hd hreset
    | _ => simp [after, hd]

/-! ### The default parameters (R132, R231, R232) -/

/-- Settles O46, by evaluating the default tables. -/
theorem defaultParametersConform : Obligations.DefaultParametersConform := by
  refine ⟨default_wf, ?_, ?_, ?_, ?_, ?_, ?_, ?_, ?_⟩ <;> decide +kernel

/-! ### The pins (R134, R140) -/

/-- The comparator as a condition on the phase and the compare value (R140). -/
theorem high_iff (p : Phase) (o : Byte) : high p o = true ↔ p.toNat < o.toNat ∨ 510 ≤ p.toNat + o.toNat := by
  simp [high, period]

/-- The counter counts up to TOP (R134). -/
theorem tcnt_up {p : Phase} (h : p.toNat ≤ 255) : tcnt p = p.toNat := if_pos h

/-- The counter counts down from TOP, which is the same from either side (R134). -/
theorem tcnt_down {p : Phase} (h : 255 ≤ p.toNat) : tcnt p = 510 - p.toNat := by
  unfold tcnt topPhase period
  split_ifs <;> omega

/-- Settles O47: a driven pin is low exactly when the polarity and the comparator agree. -/
theorem pinsFollowTheComparator : Obligations.PinsFollowTheComparator := by
  refine ⟨fun s c => ?_, fun p o hp => ⟨high_iff p o, fun hup => ?_, fun hdown => ?_⟩⟩
  · cases hen : s.out.en[c] with
    | false => simp [pin, hen]
    | true => simp [pin, chanPhase, hen]
  · have ho := o.isLt
    rw [high_iff, tcnt_up (by omega)]
    omega
  · rw [high_iff, tcnt_down hdown]
    omega

/-- Settles O48: of the 510 phases the first `o` and the last `o` are high, and those between them are not. -/
theorem pulseLastsTwiceTheCompareValue : Obligations.PulseLastsTwiceTheCompareValue := by
  intro o
  have ho := o.isLt
  have hhigh : ∀ p < 510, (high (.ofNat 9 p) o = true ↔ p < o.toNat ∨ 510 ≤ p + o.toNat) := by
    intro p hp
    rw [high_iff, BitVec.toNat_ofNat, Nat.mod_eq_of_lt (by omega)]
  have hsplit : 510 = o.toNat + (510 - 2 * o.toNat) + o.toNat := by omega
  have hfirst : ∀ p < o.toNat, high (.ofNat 9 p) o = true :=
    fun p hp => (hhigh p (by omega)).2 (.inl hp)
  have hmid : ∀ p < 510 - 2 * o.toNat, ¬ high (.ofNat 9 (o.toNat + p)) o = true :=
    fun p hp => mt (hhigh (o.toNat + p) (by omega)).1 (by omega)
  have hlast : ∀ p < o.toNat, high (.ofNat 9 (o.toNat + (510 - 2 * o.toNat) + p)) o = true :=
    fun p hp => (hhigh _ (by omega)).2 (by omega)
  calc ((List.range 510).filter fun p => high (.ofNat 9 p) o).length
      = Nat.count (fun p => high (.ofNat 9 p) o = true) 510 := by
        simp [Nat.count, List.countP_eq_length_filter]
    _ = o.toNat + 0 + o.toNat := by
        rw [hsplit, Nat.count_add, Nat.count_add, Nat.count_of_forall hfirst, Nat.count_of_forall_not hmid,
          Nat.count_of_forall hlast]
    _ = 2 * o.toNat := by omega

end Sys2Proof.Machine

namespace Sys2Proof.Machine

/-! ### The timers as functions of the clocks since START (R131, R137, R145) -/

/-- What the timers hold `n` system clocks after a START with divisor `P`, startup skew `S` and alignment `a`. While the skew
lasts, `n - S` is 0. -/
structure TimersSinceStart (P S a n : Nat) (t : Timers) : Prop where
  psca : t.psca.toNat = n % P
  pha : t.pha.toNat = n / P % 510
  skew : t.skew = S - n
  pscb : t.pscb.toNat = (n - S) % P
  phb : t.phb.toNat = (a + (n - S) / P) % 510

/-- What START writes is what the timers hold after no clock (R264). -/
theorem startState_timersSinceStart (P : Nat) {s : State} (ha : s.conf.align.toNat < 510) :
    TimersSinceStart P s.cfg.startSkew s.conf.align.toNat 0 (startState s).timers := by
  constructor <;> simp [Nat.mod_eq_of_lt ha]

/-- A count of prescaler clocks completes a phase step exactly when the prescaler wraps (R133). -/
theorem succ_div_of_wrap {P : Nat} (hP : 0 < P) (k : Nat) :
    (k + 1) / P = if k % P + 1 = P then k / P + 1 else k / P := by
  obtain ⟨p, rfl⟩ := Nat.exists_eq_succ_of_ne_zero hP.ne'
  simp only [Nat.succ_div, Nat.dvd_iff_mod_eq_zero, Nat.succ_eq_add_one, Nat.succ_mod_succ_eq_zero_iff,
    Nat.add_right_cancel_iff]
  split_ifs <;> rfl

section
variable {P S a n : Nat} {t : Timers}

/-- One system clock takes the timers from `n` clocks after START to `n + 1`. -/
theorem TimersSinceStart.clock (hP : 0 < P) (hP' : P ≤ 1024) (h : TimersSinceStart P S a n t) :
    TimersSinceStart P S a (n + 1) (t.clock (some P)) where
  psca := by rw [clock_psca_toNat hP' (h.psca ▸ Nat.mod_lt n hP), h.psca, Nat.mod_add_mod]
  pha := by
    rw [clock_pha_toNat, h.psca, h.pha, succ_div_of_wrap hP]
    split_ifs
    · rw [period, Nat.mod_add_mod]
    · rfl
  skew := by
    have hskew := h.skew
    simp only [Timers.clock]
    omega
  pscb := by
    rw [clock_pscb_toNat hP' (h.pscb ▸ Nat.mod_lt _ hP), h.skew, h.pscb]
    split_ifs with hS
    · rw [Nat.mod_add_mod, ← Nat.sub_add_comm (by omega)]
    · rw [show n + 1 - S = n - S by omega]
  phb := by
    rw [clock_phb_toNat, h.skew, h.pscb, h.phb]
    by_cases hS : S - n = 0
    · rw [show n + 1 - S = n - S + 1 by omega, succ_div_of_wrap hP]
      simp only [hS, true_and]
      split_ifs
      · rw [period, Nat.mod_add_mod, Nat.add_assoc]
      · rfl
    · rw [if_neg fun hwrap => hS hwrap.1, show n + 1 - S = n - S by omega]

/-- Timer B overflows in the clock in which its phase step, the `q`-th since the skew, leads to BOTTOM (R135, R137). -/
theorem TimersSinceStart.overflowsB_iff (hP : 0 < P) (h : TimersSinceStart P S a n t) :
    overflowsB (some P) t = true ↔ ∃ q, 0 < q ∧ n + 1 = S + P * q ∧ (a + q) % 510 = 0 := by
  rw [Machine.overflowsB_iff, h.skew, h.pscb, h.phb, period, Nat.mod_add_mod, Nat.add_assoc]
  constructor
  · rintro ⟨hS, hwrap, hbottom⟩
    refine ⟨(n - S) / P + 1, Nat.succ_pos _, ?_, hbottom⟩
    have hdiv := Nat.div_add_mod (n - S) P
    rw [Nat.mul_add_one]
    omega
  · rintro ⟨q, hq, hn, hbottom⟩
    obtain ⟨k, rfl⟩ := Nat.exists_eq_succ_of_ne_zero hq.ne'
    rw [Nat.mul_succ] at hn
    have hk : n - S = P * k + (P - 1) := by omega
    have hlt : P - 1 < P := Nat.sub_lt hP Nat.one_pos
    rw [hk, Nat.mul_add_mod, Nat.mod_eq_of_lt hlt, Nat.mul_add_div hP, Nat.div_eq_of_lt hlt]
    exact ⟨by omega, by omega, hbottom⟩

end

/-! ### The alignment check at the overflows of Timer B (R138, R145) -/

/-- The phase of Timer A when Timer B overflows, `x` of R145. -/
def overflowPhase (P S a : Nat) : Nat := (S / P + 510 - a) % 510

/-- The alignment is bad: at an overflow of Timer B, Timer A is more than one phase step from BOTTOM (R138, R145). -/
def badAlignment (P S a : Nat) : Bool := decide (min (overflowPhase P S a) (510 - overflowPhase P S a) > 1)

/-- `n` system clocks after START the first overflow of Timer B lies behind, at a bad alignment (R145). -/
def driftedSinceStart (P S a n : Nat) : Bool := decide (S + P * (510 - a) ≤ n) && badAlignment P S a

section
variable {P S a n : Nat} {t : Timers}

/-- At every overflow of Timer B, Timer A has the same phase. -/
theorem TimersSinceStart.pha_at_overflowsB (hP : 0 < P) (hP' : P ≤ 1024) (ha : a < 510) (h : TimersSinceStart P S a n t)
    (hB : overflowsB (some P) t = true) : (t.clock (some P)).pha.toNat = overflowPhase P S a := by
  obtain ⟨q, -, hn, hbottom⟩ := (h.overflowsB_iff hP).1 hB
  rw [(h.clock hP hP').pha, hn, Nat.add_mul_div_left S q hP, overflowPhase]
  generalize S / P = k
  omega

/-- Timer B does not overflow before its phase step `510 - a` since the skew. -/
theorem TimersSinceStart.first_le_of_overflowsB (hP : 0 < P) (h : TimersSinceStart P S a n t)
    (hB : overflowsB (some P) t = true) : S + P * (510 - a) ≤ n + 1 := by
  obtain ⟨q, hq, hn, hbottom⟩ := (h.overflowsB_iff hP).1 hB
  rw [hn]
  exact Nat.add_le_add_left (Nat.mul_le_mul_left P (by omega)) S

/-- The alignment check of one clock takes DRIFT from `n` clocks after START to `n + 1`. -/
theorem TimersSinceStart.driftedSinceStart_succ (hP : 0 < P) (hP' : P ≤ 1024) (ha : a < 510) (h : TimersSinceStart P S a n t) :
    driftedSinceStart P S a (n + 1)
      = (driftedSinceStart P S a n || (overflowsB (some P) t && drifted (t.clock (some P)).pha)) := by
  unfold driftedSinceStart
  cases hB : overflowsB (some P) t with
  | true =>
    have hbad : drifted (t.clock (some P)).pha = badAlignment P S a := by
      rw [drifted, h.pha_at_overflowsB hP hP' ha hB]
      rfl
    simp [h.first_le_of_overflowsB hP hB, hbad]
  | false =>
    have hne : S + P * (510 - a) ≠ n + 1 := fun he =>
      Bool.eq_false_iff.1 hB ((h.overflowsB_iff hP).2 ⟨510 - a, by omega, he.symm, by omega⟩)
    have hle : S + P * (510 - a) ≤ n + 1 ↔ S + P * (510 - a) ≤ n := by omega
    simp [hle]

end

/-! ### Runs without STOP and reset (R145, R336) -/

/-- RUN stays set but for STOP and reset (R49). -/
theorem after_run {w : OpWord} (hstop : decode w ≠ some .stop) (hreset : decode w ≠ some .evtReset) {s : State}
    (hrun : s.run = true) : (after w s).run = true := by
  cases hd : decode w with
  | none => simp [after, hd, hrun]
  | some i =>
    cases i with
    | start => simp [after, hd, startBlock, hrun]
    | stop => exact absurd hd hstop
    | evtReset => exact absurd hd hreset
    | _ => simp [after, hd, hrun]

/-- The divisor of a running block is fixed until reset (R98). -/
theorem after_divisorA {w : OpWord} (hreset : decode w ≠ some .evtReset) {s : State} (hrun : s.run = true) :
    divisorA (after w s) = divisorA s := by
  obtain ⟨hcfg, -, hconf⟩ := configurationIsLockedWhileRunning w s _ (deliver_next w s)
  rw [divisorA, divisorA, hcfg, hconf hrun hreset]

/-- DRIFT after a word that is no system clock, CLRDIAG or reset is as before (R301). -/
theorem after_drift {w : OpWord} (hclock : decode w ≠ some .evtSysclk) (hclr : decode w ≠ some .clrdiag)
    (hreset : decode w ≠ some .evtReset) (s : State) : (after w s).diag.drift = s.diag.drift := by
  obtain ⟨-, -, -, -, -, -, hquiet, -⟩ :=
    errorsAreStickyAndSetByTheirOperation w s _ (deliver_next w s) hclr hreset
  exact (hquiet hclock).1

/-- The system clock of a running block, as a delivered word (R131). -/
theorem after_evtSysclk {s : State} (hrun : s.run = true) :
    after (encode .evtSysclk) s = { clockRunning s with rdata := none } := by
  simp [after, hrun]

/-- Induction over a run, along the number of its system clocks: what each clock takes from `n` to `n + 1` and each other word
keeps holds of the last state at the number of clocks. -/
theorem finalOf_clock_induction {M : Nat → State → Prop} {ok : OpWord → Prop}
    (hclock : ∀ n s, M n s → M (n + 1) (after (encode .evtSysclk) s))
    (hother : ∀ n s w, decode w ≠ some .evtSysclk → ok w → M n s → M n (after w s))
    {ws : List OpWord} (hok : ∀ w ∈ ws, ok w) {n : Nat} {s u : State} (h : M n s) (hu : finalOf ws s = some u) :
    M (n + ws.count (encode .evtSysclk)) u := by
  induction ws generalizing n s with
  | nil =>
    obtain rfl := Option.some.inj hu
    exact h
  | cons w ws ih =>
    rw [finalOf_cons] at hu
    rw [List.forall_mem_cons] at hok
    by_cases hw : w = encode .evtSysclk
    · subst hw
      rw [List.count_cons_self, Nat.add_comm _ 1, ← Nat.add_assoc]
      exact ih hok.2 (hclock n s h) hu
    · rw [List.count_cons_of_ne hw]
      exact ih hok.2 (hother n s w (fun hd => hw (encode_of_decode hd).symm) hok.1 h) hu

/-- A block that runs since a START `n` system clocks ago. -/
structure RunningSinceStart (P S a n : Nat) (s : State) : Prop where
  run : s.run = true
  divisor : divisorA s = some P
  timers : TimersSinceStart P S a n s.timers

/-- The same, with DRIFT as it was before the START, `d`, or set since (R145). -/
structure DriftingSinceStart (P S a : Nat) (d : Bool) (n : Nat) (s : State) : Prop extends RunningSinceStart P S a n s where
  drift : s.diag.drift = (d || driftedSinceStart P S a n)

section
variable {P S a n : Nat} {d : Bool} {s : State}

/-- One system clock more. -/
theorem RunningSinceStart.after_clock (hP : 0 < P) (hP' : P ≤ 1024) (h : RunningSinceStart P S a n s) :
    RunningSinceStart P S a (n + 1) (after (encode .evtSysclk) s) where
  run := after_run (by simp) (by simp) h.run
  divisor := (after_divisorA (by simp) h.run).trans h.divisor
  timers := by
    simpa [after_evtSysclk h.run, h.divisor] using h.timers.clock hP hP'

/-- A word that is no clock, STOP or reset leaves the clocks since START as they are (R139). -/
theorem RunningSinceStart.after_other {w : OpWord} (hclock : decode w ≠ some .evtSysclk) (hstop : decode w ≠ some .stop)
    (hreset : decode w ≠ some .evtReset) (h : RunningSinceStart P S a n s) : RunningSinceStart P S a n (after w s) where
  run := after_run hstop hreset h.run
  divisor := (after_divisorA hreset h.run).trans h.divisor
  timers := by
    rw [timersMoveOnlyWithTheClock w s _ (deliver_next w s) hreset (fun hd => absurd hd hclock) fun _ => h.run]
    exact h.timers

/-- One system clock more, with its alignment check. -/
theorem DriftingSinceStart.after_clock (hP : 0 < P) (hP' : P ≤ 1024) (ha : a < 510) (h : DriftingSinceStart P S a d n s) :
    DriftingSinceStart P S a d (n + 1) (after (encode .evtSysclk) s) where
  toRunningSinceStart := h.toRunningSinceStart.after_clock hP hP'
  drift := by
    obtain ⟨-, -, -, -, hdrift⟩ := clockRunning_flags s
    rw [h.timers.driftedSinceStart_succ hP hP' ha, ← Bool.or_assoc, ← h.drift, ← h.divisor, after_evtSysclk h.run]
    exact hdrift

/-- A word that is no clock, STOP, CLRDIAG or reset leaves DRIFT as it is. -/
theorem DriftingSinceStart.after_other {w : OpWord} (hclock : decode w ≠ some .evtSysclk) (hstop : decode w ≠ some .stop)
    (hreset : decode w ≠ some .evtReset) (hclr : decode w ≠ some .clrdiag) (h : DriftingSinceStart P S a d n s) :
    DriftingSinceStart P S a d n (after w s) where
  toRunningSinceStart := h.toRunningSinceStart.after_other hclock hstop hreset
  drift := (after_drift hclock hclr hreset s).trans h.drift

end

/-- A successful START leaves a block that runs since no clock, DRIFT as before (R264). -/
theorem driftingSinceStart_of_start {s s0 : State} {P : Nat} (hP : 0 < P) (hrun : s.run = false) (hflt : s.cfgflt = false)
    (hvalid : cfgValid s = true) (hdiv : divisorA s = some P) (hstart : exec .start s = .next s0) :
    DriftingSinceStart P s.cfg.startSkew s.conf.align.toNat s.diag.drift 0 s0 := by
  have ha : s.conf.align.toNat < 510 := Nat.lt_succ_of_le (cfgValid_bounds hvalid).2.2
  have hlater : ¬ s.cfg.startSkew + P * (510 - s.conf.align.toNat) ≤ 0 := by
    have := Nat.mul_pos hP (Nat.sub_pos_of_lt ha)
    omega
  obtain rfl : { startAcquire (startState s) with rdata := none } = s0 := by
    simpa [exec, execStart, complete, startBlock, hrun, hflt, hvalid] using hstart
  refine ⟨⟨by simp, by simpa [divisorA] using hdiv, ?_⟩, ?_⟩
  · simpa using startState_timersSinceStart P ha
  · simp [driftedSinceStart, hlater]

/-- Settles O53: START leaves the timers of no clock, each clock moves them on by one, and its alignment check sees Timer A at
the phase `x` whenever Timer B overflows. -/
theorem alignmentLaw : Obligations.AlignmentLaw := by
  intro s s0 u P ws hwf hrun hflt hvalid hdiv hstart hok hu t skew align x
  obtain ⟨hP, hP'⟩ := divisorA_bounds hwf hdiv
  have ha : align < 510 := Nat.lt_succ_of_le (cfgValid_bounds hvalid).2.2
  have hstarted : DriftingSinceStart P skew align s.diag.drift 0 s0 :=
    driftingSinceStart_of_start hP hrun hflt hvalid hdiv hstart
  have hfinal : RunningSinceStart P skew align (0 + t) u :=
    finalOf_clock_induction (fun _ _ h => h.after_clock hP hP')
      (fun _ _ _ hclock hok h => h.after_other hclock hok.1 hok.2) hok hstarted.toRunningSinceStart hu
  rw [Nat.zero_add] at hfinal
  refine ⟨hfinal.timers.pha, fun _ => hfinal.timers.phb, fun hclr => ?_⟩
  have hok' : ∀ w ∈ ws, (decode w ≠ some .stop ∧ decode w ≠ some .evtReset) ∧ decode w ≠ some .clrdiag :=
    fun w hw => ⟨hok w hw, hclr w hw⟩
  have hdrift : DriftingSinceStart P skew align s.diag.drift (0 + t) u :=
    finalOf_clock_induction (fun _ _ h => h.after_clock hP hP' ha)
      (fun _ _ _ hclock hok h => h.after_other hclock hok.1.1 hok.1.2 hok.2) hok' hstarted hu
  rw [Nat.zero_add] at hdrift
  exact hdrift.drift

end Sys2Proof.Machine

namespace Sys2Proof.Machine

/-! ### The sensor event (R160) -/

/-- A latched change: SPEND is set, and SLOST too when a notification is waiting already (R160, R161). -/
theorem latchSensor_change {code : Byte} {s : State} (hrun : s.run = true) (hcode : code ≠ s.sensin) :
    latchSensor code s = { s with sensin := code, spend := true, diag.slost := (s.diag.slost || s.spend) } := by
  have hn : notifies s.run s.sensin code = true := by simp [notifies, hrun, hcode]
  unfold latchSensor
  rw [if_pos hn]
  cases s.spend <;> simp [recordError]

/-- Without a notification only SENSIN is set (R160, R162). -/
theorem latchSensor_quiet {code : Byte} {s : State} (h : s.run = false ∨ code = s.sensin) :
    latchSensor code s = { s with sensin := code } := by
  have hn : notifies s.run s.sensin code = false := by
    obtain h | h := h <;> simp [notifies, h]
  simp [latchSensor, hn]

/-- Settles O30: the word is format E with code 1, and the latch decides the rest. -/
theorem sensorEventLatchesAChange : Obligations.SensorEventLatchesAChange := by
  intro s code
  refine ⟨decode_eq_some_of_toNat ?_, fun h => ?_, fun hrun hcode hspend => ?_, fun hrun hcode hspend => ?_⟩
  · have := code.isLt
    simp [encode]
    omega
  · simp [exec, execEvtSensor, complete, latchSensor_quiet h]
  · simp [exec, execEvtSensor, complete, latchSensor_change hrun hcode, hspend]
  · simp [exec, execEvtSensor, complete, latchSensor_change hrun hcode, hspend]

/-! ### Neighbours and lookups (R163) -/

/-- The neighbour of a step in a direction, in a sequence of `n` steps (R163). -/
def neighbour (d : Direction) (n : Byte) (p : StepIx) : StepIx :=
  match d with
  | .forward => stepForward n p
  | .reverse => stepReverse n p

/-- A code is looked up at its own place in a valid configuration (R163, R265). -/
theorem findStep_seqAt {s : State} (hvalid : cfgValid s = true) {j : StepIx} (hj : j.toNat < s.conf.seqlen.toNat) :
    s.conf.findStep (s.conf.seqAt j) = some j := by
  cases hfind : s.conf.findStep (s.conf.seqAt j) with
  | none => exact absurd rfl (findStep_none hfind j hj)
  | some i =>
    obtain ⟨hi, hcode⟩ := findStep_some hfind
    rw [seqAt_injective hvalid hi hj hcode]

/-- The code of a neighbour is an accepted transition to it: no code is that of both neighbours (R163, R265). -/
theorem sensorService_neighbour {s : State} (hvalid : cfgValid s = true) (hpv : s.seqr.pv = true)
    (hpos : s.seqr.pos.toNat < s.conf.seqlen.toNat) {d : Direction}
    (hcode : s.sensin = s.conf.seqAt (neighbour d s.conf.seqlen s.seqr.pos)) :
    sensorService s = accept (neighbour d s.conf.seqlen s.seqr.pos) d s := by
  obtain ⟨hn, hn', -⟩ := cfgValid_bounds hvalid
  unfold sensorService servicePlaced
  rw [if_pos hpv]
  cases d with
  | forward => exact if_pos hcode
  | reverse =>
    have hne : s.sensin ≠ forwardCode s := fun hf =>
      stepForward_ne_stepReverse hn hn' hpos (seqAt_injective hvalid (stepForward_lt hn hn' _) (stepReverse_lt hn hn' _)
        (hf.symm.trans hcode))
    rw [if_neg hne]
    exact if_pos hcode

/-- With no position known the code of a step acquires it (R163, R165). -/
theorem sensorService_acquires {s : State} (hvalid : cfgValid s = true) (hpv : s.seqr.pv = false) {j : StepIx}
    (hj : j.toNat < s.conf.seqlen.toNat) (hcode : s.sensin = s.conf.seqAt j) : sensorService s = acquire j s := by
  simp [sensorService, serviceUnplaced, hpv, hcode, findStep_seqAt hvalid hj]

/-- With a position known a code of neither neighbour is discarded, and counted unless it is the current step's (R163, R167). -/
theorem sensorService_discards_placed {s : State} (hpv : s.seqr.pv = true) (hf : s.sensin ≠ forwardCode s)
    (hr : s.sensin ≠ reverseCode s) :
    sensorService s = if s.sensin = currentCode s then s else recordError .sensor s := by
  simp [sensorService, servicePlaced, hpv, hf, hr]

/-- With no position known a code of no step is discarded and counted (R163, R167). -/
theorem sensorService_discards_unplaced {s : State} (hpv : s.seqr.pv = false)
    (hno : ∀ j : StepIx, j.toNat < s.conf.seqlen.toNat → s.conf.seqAt j ≠ s.sensin) :
    sensorService s = recordError .sensor s := by
  have hfind : s.conf.findStep s.sensin = none := by
    cases h : s.conf.findStep s.sensin with
    | none => rfl
    | some j =>
      obtain ⟨hj, hcode⟩ := findStep_some h
      exact absurd hcode (hno j hj)
  simp [sensorService, serviceUnplaced, hpv, hfind]

/-! ### A clock with a notification against the same clock without it (R131, R161) -/

/-- A system clock with its latch cleared, before its sensor service (R161; R306, items 1 to 5). -/
def clockUnserved (s : State) : State := clockTick { s with spend := false }

/-- What a system clock leaves before its sensor service, and the timers and the overflow count (R131, R143). -/
@[simp] theorem clockUnserved_fields (s : State) :
    (clockUnserved s).cfg = s.cfg ∧ (clockUnserved s).conf = s.conf ∧ (clockUnserved s).run = s.run
    ∧ (clockUnserved s).sensin = s.sensin ∧ (clockUnserved s).spend = false ∧ (clockUnserved s).seqr = s.seqr
    ∧ (clockUnserved s).est = s.est ∧ (clockUnserved s).timers = s.timers.clock (divisorA s)
    ∧ (clockUnserved s).interval.lastph = s.interval.lastph ∧ (clockUnserved s).interval.refv = s.interval.refv := by
  simp [clockUnserved, divisorA]

/-- A system clock keeps the invariant up to its sensor service (R131, R161). -/
theorem clockUnserved_inv {s : State} (h : Inv s) (hrun : s.run = true) : Inv (clockUnserved s) :=
  clockTick_inv (Inv.of_same h rfl rfl rfl rfl nofun rfl rfl rfl rfl rfl rfl rfl) hrun

/-- The clock with a notification is the clock without it, then the sensor service (R131). -/
theorem exec_clock_served {s : State} (hrun : s.run = true) (hspend : s.spend = true) :
    exec .evtSysclk s = .next { sensorService (clockUnserved s) with rdata := none }
    ∧ exec .evtSysclk { s with spend := false } = .next { clockUnserved s with rdata := none } := by
  have hrun' : { s with spend := false }.run = true := hrun
  rw [exec_clock_running hrun, clockRunning_served hspend, exec_clock_running hrun', clockRunning_quiet rfl]
  exact ⟨rfl, rfl⟩

/-! ### A discarded notification (R167) -/

/-- Settles O41: the sensor service of the clock is all that differs, and it records the fault or does nothing. -/
theorem discardedNotificationChangesSfcntAlone : Obligations.DiscardedNotificationChangesSfcntAlone := by
  intro s u hrun hspend hu
  obtain ⟨hserved, hquiet⟩ := exec_clock_served hrun hspend
  obtain rfl := Host.Outcome.next.inj (hquiet.symm.trans hu)
  rw [hserved]
  refine ⟨fun hpv hf hr => ?_, fun hpv hno => ?_⟩
  · rw [sensorService_discards_placed (by simpa) (by simpa [forwardCode] using hf) (by simpa [reverseCode] using hr)]
    by_cases hcur : s.sensin = currentCode s
    · rw [if_pos (by simpa [currentCode] using hcur), if_pos hcur]
    · rw [if_neg (by simpa [currentCode] using hcur), if_neg hcur]
      rfl
  · have hno' : ∀ j : StepIx, j.toNat < s.conf.seqlen.toNat → s.conf.seqAt j ≠ s.sensin := fun j hj => hno j.toFin hj
    rw [sensorService_discards_unplaced (by simpa) (by simpa using hno')]
    rfl

/-! ### The position (R163, R170) -/

/-- A sensor service with a known position keeps it or moves to a neighbour (R163, R170). -/
theorem sensorService_pos {s : State} (hpv : s.seqr.pv = true) :
    (sensorService s).seqr.pv = true ∧ ((sensorService s).seqr.pos = s.seqr.pos
      ∨ ∃ d, (sensorService s).seqr.pos = neighbour d s.conf.seqlen s.seqr.pos) := by
  obtain ⟨-, -, e⟩ | ⟨-, -, -, e⟩ | ⟨-, -, -, -, e⟩ | ⟨j, hno, -, -⟩ | e := sensorService_cases s
  · exact ⟨by simp [e, hpv], .inr ⟨.forward, by simp [e, neighbour]⟩⟩
  · exact ⟨by simp [e, hpv], .inr ⟨.reverse, by simp [e, neighbour]⟩⟩
  · simp [e, hpv]
  · simp [hpv] at hno
  · simp [e, hpv]

/-- A system clock of a running block keeps a known position or moves to a neighbour (R131, R170). -/
theorem clockRunning_pos {s : State} (hpv : s.seqr.pv = true) :
    (clockRunning s).seqr.pv = true ∧ ((clockRunning s).seqr.pos = s.seqr.pos
      ∨ ∃ d, (clockRunning s).seqr.pos = neighbour d s.conf.seqlen s.seqr.pos) := by
  cases hspend : s.spend with
  | false => simp [clockRunning_quiet hspend, hpv]
  | true =>
    have hclock : clockRunning s = sensorService (clockUnserved s) := clockRunning_served hspend
    simpa [hclock] using sensorService_pos (s := clockUnserved s) (by simpa)

/-- While RUN = 1 no delivered word but a system clock and a reset touches POS, PV and DIR (R104, R264). -/
theorem after_seqr {w : OpWord} (hclock : decode w ≠ some .evtSysclk) (hreset : decode w ≠ some .evtReset) {s : State}
    (hrun : s.run = true) : (after w s).seqr = s.seqr := by
  cases hd : decode w with
  | none => simp [after, hd]
  | some i =>
    cases i with
    | start => simp [after, hd, startBlock, hrun]
    | evtSysclk => exact absurd hd hclock
    | evtReset => exact absurd hd hreset
    | _ => simp [after, hd]

/-- Settles O42: the one word that moves the position is the clock, whose sensor service accepts neighbours alone. -/
theorem positionMovesOnlyToANeighbour : Obligations.PositionMovesOnlyToANeighbour := by
  intro w s t h hrun hpv hreset ht
  obtain rfl := eq_after_of_deliver ht
  obtain ⟨hn, hn', -⟩ := cfgValid_bounds (h.valid hrun).1
  by_cases hclock : decode w = some .evtSysclk
  · have hafter : (after w s).seqr = (clockRunning s).seqr := by simp [after, hclock, hrun]
    obtain ⟨hpv', hpos⟩ := clockRunning_pos hpv
    rw [hafter]
    refine ⟨hpv', hpos.imp_right fun ⟨d, hpos⟩ => ⟨hclock, ?_⟩⟩
    rw [hpos]
    cases d with
    | forward => exact .inl (stepForward_toNat hn hn' _)
    | reverse => exact .inr (stepReverse_toNat hn hn' _)
  · rw [after_seqr hclock hreset hrun]
    exact ⟨hpv, .inl rfl⟩

/-! ### The outputs a map drives (R215, R216) -/

/-- The outputs driven from a channel map, with the duty and IVALID of `s` (R215). -/
def Outputs.drive (map : Byte) (s : State) (o : Outputs) : Outputs :=
  { o with en := mapEnables map, pol := mapPolarities map, ocrbuf := mapBuffers map s }

/-- A channel driven from a map (R215, R216). -/
theorem channel_of_drive {map : Byte} {s : State} {o o' : Outputs} (h : o' = o.drive map s) (c : Chan) :
    o'.en[c] = decide (chanMode map c ≠ .off) ∧ o'.pol[c] = decide (chanMode map c = .pwmInv)
    ∧ o'.ocrbuf[c] = chanVal (chanMode map c) s := by
  simp [h, Outputs.drive, mapEnables, mapPolarities, mapBuffers]

/-- A map reads DUTY and IVALID alone of the state (R216). -/
theorem drive_congr {s t : State} (hd : s.interp.duty = t.interp.duty) (hi : s.est.ivalid = t.est.ivalid) (map : Byte)
    (o : Outputs) : o.drive map s = o.drive map t := by
  rw [Outputs.drive, mapBuffers_congr hd hi]
  rfl

/-- What an acquisition writes (R165). -/
theorem acquire_effect (j : StepIx) (s : State) :
    (acquire j s).seqr = { s.seqr with pos := j, pv := true }
    ∧ (acquire j s).interval = { ovfcnt := 0, lastph := s.timers.pha, refv := false }
    ∧ (acquire j s).interp = { s.interp with fp := s.cfg.fpStart, ovr := false }
    ∧ (acquire j s).comp = { s.comp with pend := false, pcnt := 0, appstep := j, appv := true }
    ∧ (acquire j s).out = s.out.drive (s.conf.mapAt j) (acquire j s) := by
  refine ⟨rfl, rfl, rfl, rfl, ?_⟩
  exact drive_congr (by simp [acquire]) (by simp [acquire]) _ _

/-- Settles O40: the sensor service of the clock acquires the step. -/
theorem firstMatchingCodeAcquires : Obligations.FirstMatchingCodeAcquires := by
  intro s j h hrun hspend hpv hj hcode
  obtain ⟨hserved, hquiet⟩ := exec_clock_served hrun hspend
  have hvalid : cfgValid (clockUnserved s) = true := ((clockUnserved_inv h hrun).valid (by simpa)).1
  have hacq : sensorService (clockUnserved s) = acquire (.ofNat 4 j.val) (clockUnserved s) :=
    sensorService_acquires hvalid (by simpa) (by simpa) (by simp [Conf.seqAt, ← hcode])
  have hmap : s.conf.mapAt (.ofNat 4 j.val) = s.conf.chmap[j] := by simp [Conf.mapAt]
  obtain ⟨hseqr, hinterval, hinterp, hcomp, hout⟩ := acquire_effect (.ofNat 4 j.val) (clockUnserved s)
  obtain ⟨-, -, -, -, -, -, -, -, htimers, hest, hdiag, -⟩ := acquire_frame (.ofNat 4 j.val) (clockUnserved s)
  have hocr := congrArg Outputs.ocr hout
  rw [← htimers] at hinterval
  simp only [clockUnserved_fields, hmap] at hseqr hinterp hout hest
  rw [hacq] at hserved
  generalize acquire (.ofNat 4 j.val) (clockUnserved s) = v at *
  generalize clockUnserved s = u at *
  exact ⟨_, _, hserved, hquiet, hseqr, hinterval, hinterp, hcomp, hest, htimers, hdiag, hocr, channel_of_drive hout⟩

/-! ### The recorded interval (R190, R191, R192) -/

/-- The interval up to now counts from the reference point, and is never negative (R190). -/
theorem intervalTotal_add_lastph {s : State} (h : Inv s) :
    intervalTotal s + s.interval.lastph.toNat = s.interval.ovfcnt.toNat * 510 + s.timers.pha.toNat := by
  have hlast : s.interval.lastph.toNat < 510 := h.phases.2.2.1
  have hle : s.interval.lastph.toNat ≤ s.interval.ovfcnt.toNat * 510 + s.timers.pha.toNat := by
    by_cases h0 : s.interval.ovfcnt = 0
    · have := h.reference h0
      omega
    · have : s.interval.ovfcnt.toNat ≠ 0 := fun hz => h0 (BitVec.eq_of_toNat_eq hz)
      omega
  simp only [intervalTotal, period]
  omega

/-- The tick count of the interval fits 16 bits (R35, R190). -/
theorem intervalTotal_lt {s : State} (h : Inv s) : intervalTotal s < 65536 * 510 := by
  have hpha : s.timers.pha.toNat < 510 := h.phases.1
  have hovf := s.interval.ovfcnt.isLt
  simp only [intervalTotal, period]
  omega

/-- The sample of an interval whose tick count fits 16 bits, as numbers (R191, R192). -/
theorem sampleOf_toNat {total : Nat} (h : total < 65536 * 510) :
    (sampleOf total).ic.toNat = total / 510 ∧ (sampleOf total).ifine.toNat = total % 510
    ∧ (sampleOf total).ivalid = true
    ∧ (sampleOf total).rate.toNat = (if total = 0 then 65535 else min 65535 (65536 * 510 / total)) := by
  refine ⟨?_, ?_, rfl, ?_⟩
  · rw [sampleOf, BitVec.toNat_ofNat]
    exact Nat.mod_eq_of_lt (Nat.div_lt_of_lt_mul (by omega))
  · rw [sampleOf, BitVec.toNat_ofNat]
    exact Nat.mod_eq_of_lt ((Nat.mod_lt total (by decide)).trans (by decide))
  · split_ifs with h0
    · simp [sampleOf, rateOf, h0]
    · exact rateOf_toNat h0

/-! ### An accepted transition (R166, R212) -/

/-- A clock with the code of a neighbour ends with an accepted transition to it (R131, R163). -/
theorem sensorService_clockUnserved_accepts {s : State} (h : Inv s) (hrun : s.run = true) (hpv : s.seqr.pv = true)
    {d : Direction} (hcode : s.sensin = s.conf.seqAt (neighbour d s.conf.seqlen s.seqr.pos)) :
    sensorService (clockUnserved s) = accept (neighbour d s.conf.seqlen s.seqr.pos) d (clockUnserved s) := by
  have hinv := clockUnserved_inv h hrun
  have hpos : (clockUnserved s).seqr.pos.toNat < (clockUnserved s).conf.seqlen.toNat :=
    (hinv.position (by simpa)).1 (by simpa)
  simpa using sensorService_neighbour (d := d) (hinv.valid (by simpa)).1 (by simpa) hpos (by simpa)

/-- Settles O38: the sensor service of the clock accepts the transition to the neighbour. -/
theorem acceptedTransitionMovesAndRecords : Obligations.AcceptedTransitionMovesAndRecords := by
  intro s p d h hrun hspend hpv hstep hcode
  obtain ⟨hserved, hquiet⟩ := exec_clock_served hrun hspend
  obtain ⟨hn, hn', -⟩ := cfgValid_bounds (h.valid hrun).1
  obtain rfl : (neighbour d s.conf.seqlen s.seqr.pos).toNat = p := by
    obtain ⟨rfl, rfl⟩ | ⟨rfl, rfl⟩ := hstep
    · exact stepForward_toNat hn hn' _
    · exact stepReverse_toNat hn hn' _
  have hacc := sensorService_clockUnserved_accepts (d := d) h hrun hpv (by
    obtain ⟨_, hcode⟩ := List.getElem?_eq_some_iff.1 hcode
    simpa [Conf.seqAt] using hcode.symm)
  have hinv := clockUnserved_inv h hrun
  have htotal := intervalTotal_add_lastph hinv
  rw [hacc] at hserved
  refine ⟨_, _, hserved, hquiet, ?_⟩
  simp only [accept_effect, accept_frame, clockUnserved_fields, hpv, BitVec.ofNat_toNat, BitVec.setWidth_eq, true_and]
  refine ⟨fun href => by simp [href], fun href => ⟨intervalTotal (clockUnserved s), ?_, ?_⟩, ?_⟩
  · simpa using htotal
  · simpa only [href, if_true] using sampleOf_toNat (intervalTotal_lt hinv)
  · rw [← hacc, sensorService_ocr]

/-- The four ways Arm ends (R211, R212, R213). -/
theorem arm_cases (p : StepIx) (s : State) :
    (s.conf.phmode = .delay ∧ s.conf.phofs ≠ 0
      ∧ arm p s = schedule p (s.conf.phofs.setWidth 16) (cancelSchedule s))
    ∨ (s.conf.phmode = .delay ∧ s.conf.phofs = 0 ∧ arm p s = applyMap p (cancelSchedule s))
    ∨ (s.conf.phmode = .advance ∧ predictable s = false ∧ arm p s = applyMap p (cancelSchedule s))
    ∨ (s.conf.phmode = .advance ∧ predictable s = true
      ∧ arm p s = schedule (nextStep s p) (leadTicks s) (applyMap p (cancelSchedule s))) := by
  unfold arm
  cases s.conf.phmode with
  | delay =>
    by_cases hofs : s.conf.phofs = 0
    · exact .inr (.inl ⟨rfl, hofs, if_pos hofs⟩)
    · exact .inl ⟨rfl, hofs, if_neg hofs⟩
  | advance =>
    cases hpred : predictable s with
    | false => exact .inr (.inr (.inl ⟨rfl, rfl, if_neg (Bool.eq_false_iff.1 hpred)⟩))
    | true => exact .inr (.inr (.inr ⟨rfl, rfl, if_pos hpred⟩))

/-- The lead of a predicted edge as a number (R213). -/
theorem leadTicks_toNat (s : State) : (leadTicks s).toNat = s.est.ic.toNat - s.conf.phofs.toNat := by
  rw [leadTicks, BitVec.toNat_ofNat]
  exact Nat.mod_eq_of_lt ((Nat.sub_le _ _).trans_lt s.est.ic.isLt)

/-- The three ways an accepted transition leaves the compensator and the outputs (R212): the step is scheduled; it is applied at
once; it is applied at once and the next one is scheduled. -/
theorem accept_cases (p : StepIx) (d : Direction) (s : State) :
    (s.conf.phmode = .delay ∧ s.conf.phofs ≠ 0
      ∧ (accept p d s).comp = { s.comp with pend := true, ptgt := p, pcnt := .ofNat 16 s.conf.phofs.toNat }
      ∧ (accept p d s).out = s.out)
    ∨ ((s.conf.phmode = .delay ∧ s.conf.phofs = 0 ∨ s.conf.phmode = .advance ∧ predictable (accept p d s) = false)
      ∧ (accept p d s).comp = { s.comp with pend := false, pcnt := 0, appstep := p, appv := true }
      ∧ (accept p d s).out = s.out.drive (s.conf.mapAt p) (accept p d s))
    ∨ (s.conf.phmode = .advance ∧ predictable (accept p d s) = true
      ∧ (accept p d s).comp = { pend := true, ptgt := neighbour d s.conf.seqlen p, pcnt := leadTicks (accept p d s),
                                appstep := p, appv := true }
      ∧ (accept p d s).out = s.out.drive (s.conf.mapAt p) (accept p d s)) := by
  obtain ⟨w, hw⟩ : ∃ w, resyncFp (moveTo p d (setReference true (recordSample s))) = w := ⟨_, rfl⟩
  have hacc : accept p d s = arm p w := by rw [accept, hw]
  have hconf : w.conf = s.conf := by simp [← hw]
  have hcomp : w.comp = s.comp := by simp [← hw]
  have hout : w.out = s.out := by simp [← hw]
  have hnext : nextStep w p = neighbour d s.conf.seqlen p := by cases d <;> simp [nextStep, neighbour, ← hw]
  have hpred : predictable (arm p w) = predictable w := by simp [predictable]
  have hlead : leadTicks (arm p w) = leadTicks w := by simp [leadTicks]
  have hdrive : (applyMap p (cancelSchedule w)).out = s.out.drive (s.conf.mapAt p) (arm p w) := by
    rw [← hout, ← hconf]
    exact drive_congr (by simp) (by simp) _ _
  rw [hacc, hpred, hlead, ← hconf]
  obtain ⟨hmode, hofs, e⟩ | ⟨hmode, hofs, e⟩ | ⟨hmode, hp, e⟩ | ⟨hmode, hp, e⟩ := arm_cases p w
  · exact .inl ⟨hmode, hofs, by simp [e, hcomp], by simp [e, hout]⟩
  · exact .inr (.inl ⟨.inl ⟨hmode, hofs⟩, by simp [e, hcomp], by rw [hconf, ← hdrive, e]⟩)
  · exact .inr (.inl ⟨.inr ⟨hmode, hp⟩, by simp [e, hcomp], by rw [hconf, ← hdrive, e]⟩)
  · exact .inr (.inr ⟨hmode, hp, by simp [e, hnext, hconf], by rw [hconf, ← hdrive, e]; rfl⟩)

/-- Settles O39, along the three ways an accepted transition ends. -/
theorem acceptedTransitionArmsTheCompensator : Obligations.AcceptedTransitionArmsTheCompensator := by
  intro s t u h hrun hspend hpv hcode ht hu
  obtain ⟨hn, hn', -⟩ := cfgValid_bounds (h.valid hrun).1
  obtain ⟨d, hd⟩ : ∃ d, s.sensin = s.conf.seqAt (neighbour d s.conf.seqlen s.seqr.pos) :=
    hcode.elim (⟨.forward, ·⟩) (⟨.reverse, ·⟩)
  obtain ⟨hserved, hquiet⟩ := exec_clock_served hrun hspend
  rw [sensorService_clockUnserved_accepts h hrun hpv hd] at hserved
  obtain rfl := Host.Outcome.next.inj (hserved.symm.trans ht)
  obtain rfl := Host.Outcome.next.inj (hquiet.symm.trans hu)
  have hcases := accept_cases (neighbour d s.conf.seqlen s.seqr.pos) d (clockUnserved s)
  obtain ⟨hseqr, -⟩ := accept_effect (neighbour d s.conf.seqlen s.seqr.pos) d (clockUnserved s)
  have hconf : (accept (neighbour d s.conf.seqlen s.seqr.pos) d (clockUnserved s)).conf = s.conf := by simp
  simp only [clockUnserved_fields] at hcases
  generalize neighbour d s.conf.seqlen s.seqr.pos = p at *
  generalize accept p d (clockUnserved s) = v at *
  generalize clockUnserved s = q at *
  obtain rfl : v.seqr.pos = p := by rw [hseqr]
  obtain rfl : v.seqr.dir = d := by rw [hseqr]
  have hpredictable : predictable v = true ↔ v.est.ivalid = true ∧ v.est.ic.toNat > s.conf.phofs.toNat := by
    simp [predictable, hconf]
  obtain ⟨hmode, hofs, hcomp, hout⟩ | ⟨hwhy, hcomp, hout⟩ | ⟨hmode, hpred, hcomp, hout⟩ := hcases
  · refine ⟨fun _ _ => ⟨hcomp, hout⟩, fun hnow => absurd ?_ hofs, fun hnone => absurd ?_ hofs, fun hadvance => ?_⟩
    · simpa [hmode] using hnow
    · simpa [hmode] using hnone
    · simp [hmode] at hadvance
  · refine ⟨fun hdelay hofs => absurd ?_ hofs, fun _ => ⟨by simp [hcomp], by simp [hcomp], channel_of_drive hout⟩,
      fun _ => ⟨by simp [hcomp], by simp [hcomp], by simp [hcomp]⟩, fun hadvance hvalid hlong => ?_⟩
    · simpa [hdelay] using hwhy
    · simp [hadvance, hpredictable.2 ⟨hvalid, hlong⟩] at hwhy
  · refine ⟨fun hdelay => ?_, fun _ => ⟨by simp [hcomp], by simp [hcomp], channel_of_drive hout⟩, fun hnone => ?_,
      fun _ _ _ => ⟨by simp [hcomp], by simp [hcomp, leadTicks_toNat, hconf], fun hdir => ?_, fun hdir => ?_⟩⟩
    · simp [hmode] at hdelay
    · simp [hmode, hpredictable.1 hpred] at hnone
    · have hdir : v.seqr.dir = .forward := hdir
      simp [hcomp, hdir, neighbour, stepForward_toNat hn hn']
    · have hdir : v.seqr.dir = .reverse := hdir
      simp [hcomp, hdir, neighbour, stepReverse_toNat hn hn']

end Sys2Proof.Machine

namespace Sys2Proof.Machine

/-! ### The rate of an interval (R192, R195) -/

/-- An interval of one tick or less saturates the rate (R192). -/
theorem rateOf_saturates {total : Nat} (h : total ≤ period) : rateOf total = 0xFFFF := by
  obtain rfl | h0 := Nat.eq_zero_or_pos total
  · rfl
  · have hspan : span ≤ span * period / total := (Nat.le_div_iff_mul_le h0).2 (Nat.mul_le_mul_left span h)
    apply BitVec.eq_of_toNat_eq
    rw [rateOf_toNat h0.ne']
    exact Nat.min_eq_left ((by decide : 0xFFFF ≤ span).trans hspan)

/-- The phase steps of whole ticks cancel, so their rate is the span over the ticks, cut at 0xFFFF (R195). -/
theorem rateOf_ticks {T : Nat} (h : T ≠ 0) : (rateOf (T * period)).toNat = min 0xFFFF (span / T) := by
  rw [rateOf_toNat (Nat.mul_ne_zero h (by decide)), Nat.mul_div_mul_right span T (by decide)]

/-- Settles O43: the rate saturates up to one tick, and the floor is not 0 while the total is at most its dividend. -/
theorem rateIsTheFloorOfSpanPerTick : Obligations.RateIsTheFloorOfSpanPerTick := by
  refine ⟨rfl, fun total h0 => rateOf_toNat h0, fun total h => ?_, fun total h => ?_⟩
  · rw [rateOf_saturates h]
    rfl
  · have hne : rateOf total ≠ 0 := rateOf_ne_zero (h.trans (by decide))
    exact Nat.one_le_iff_ne_zero.2 fun hz => hne (BitVec.eq_of_toNat_eq hz)

/-- Settles O44: from two ticks on the floor is at most half the span, so nothing is cut. -/
theorem rateOfWholeTicksIsSpanOverTicks : Obligations.RateOfWholeTicksIsSpanOverTicks := by
  refine ⟨fun T h1 _ => ?_, rateOf_saturates le_rfl⟩
  have hhalf : span / T ≤ span / 2 := Nat.div_le_div_left h1 (by decide)
  rw [show T * 510 = T * period from rfl, rateOf_ticks (by omega)]
  exact Nat.min_eq_right (hhalf.trans (by decide))

end Sys2Proof.Machine

namespace Sys2Proof.Machine

/-! ### A tick and the compensator (R214, R215, R216, R237) -/

/-- A clock with a tick and no notification is the tick service after the timers, the overflow count and the alignment check
(R131). -/
theorem clockRunning_tick {s : State} (hspend : s.spend = false) (hticks : ticks s = true) :
    clockRunning s = tickService (clockCheck s) := by
  rw [clockRunning_quiet hspend, clockTick_tick hticks]

/-- A clock without a tick and a notification leaves the compensator, the enables and the polarities (R131, R305). -/
theorem clockRunning_between_comp {s : State} (hspend : s.spend = false) (hticks : ticks s = false) :
    (clockRunning s).comp = s.comp ∧ (clockRunning s).out.en = s.out.en ∧ (clockRunning s).out.pol = s.out.pol := by
  rw [clockRunning_quiet hspend, clockTick_between hticks, clockCheck_between hticks]
  exact ⟨rfl, rfl, rfl⟩

/-- The three ways a clock with a tick and no notification leaves the compensator, the enables and the polarities (R214, R215):
nothing is scheduled; the count goes on; it was the last one and the target is applied. -/
theorem clockRunning_tick_cases {s : State} (hspend : s.spend = false) (hticks : ticks s = true) :
    (s.comp.pend = false ∧ (clockRunning s).comp = s.comp
      ∧ (clockRunning s).out.en = s.out.en ∧ (clockRunning s).out.pol = s.out.pol)
    ∨ (s.comp.pend = true ∧ s.comp.pcnt ≠ 1 ∧ (clockRunning s).comp = { s.comp with pcnt := s.comp.pcnt - 1 }
      ∧ (clockRunning s).out.en = s.out.en ∧ (clockRunning s).out.pol = s.out.pol)
    ∨ (s.comp.pend = true ∧ s.comp.pcnt = 1
      ∧ (clockRunning s).comp
        = { pend := false, ptgt := s.comp.ptgt, pcnt := 0, appstep := s.comp.ptgt, appv := true }
      ∧ (clockRunning s).out.en = mapEnables (s.conf.mapAt s.comp.ptgt)
      ∧ (clockRunning s).out.pol = mapPolarities (s.conf.mapAt s.comp.ptgt)) := by
  have hcheck : (clockCheck s).comp = s.comp := by simp
  have hcomp : (clockRunning s).comp = (compTick (clockCheck s)).comp := by simp [clockRunning_tick hspend hticks]
  obtain ⟨hen, hpol, -⟩ := tickService_out (clockCheck s)
  rw [hcomp, clockRunning_tick hspend hticks, hen, hpol]
  obtain ⟨hp, e⟩ | ⟨hp, h1, e⟩ | ⟨hp, h1, e⟩ := compTick_cases (clockCheck s) <;> rw [hcheck] at hp
  · exact .inl ⟨hp, by simp [e, Outputs.load]⟩
  · exact .inr (.inl ⟨hp, hcheck ▸ h1, by simp [e, Outputs.load]⟩)
  · exact .inr (.inr ⟨hp, hcheck ▸ h1, by simp [e]⟩)

/-- A compensator tick after which no map is applied leaves the compare buffers (R214, R237). -/
theorem compTick_ocrbuf_of_unapplied {s : State} (h : (compTick s).comp.appv = false) :
    (compTick s).out.ocrbuf = s.out.ocrbuf := by
  obtain ⟨-, e⟩ | ⟨-, -, e⟩ | ⟨-, -, e⟩ := compTick_cases s
  · rw [e]
  · rw [e]
  · simp [e] at h

/-- The compare buffers after a clock with a tick and no notification: as before while no map is applied, else those of the
applied map with the duty of this tick (R216, R237). -/
theorem clockRunning_tick_ocrbuf {s : State} (hspend : s.spend = false) (hticks : ticks s = true) :
    (clockRunning s).out.ocrbuf
      = if (clockRunning s).comp.appv then
          mapBuffers ((clockRunning s).conf.mapAt (clockRunning s).comp.appstep) (clockRunning s)
        else s.out.ocrbuf := by
  obtain ⟨-, -, -, hbuf⟩ := tickService_out (clockCheck s)
  simp only [clockRunning_tick hspend hticks, hbuf, tickService_frame]
  split_ifs with happ
  · exact mapBuffers_congr (by simp [tickDuty]) (by simp) _
  · rw [compTick_ocrbuf_of_unapplied (Bool.eq_false_iff.2 happ)]
    simp [Outputs.load]

/-- Settles O37: the compensator tick of the clock ends in one of three ways, and the buffers follow the map applied after it. -/
theorem tickRunsTheCompensatorAndWritesTheBuffers : Obligations.TickRunsTheCompensatorAndWritesTheBuffers := by
  intro s P hrun hdiv hspend hpsca hpha
  have hticks : ticks s = true := (ticks_iff hdiv).2 ⟨hpsca, hpha⟩
  have hbuf := clockRunning_tick_ocrbuf hspend hticks
  refine ⟨_, exec_clock_running hrun, fun hp => ?_, fun hp h1 => ?_, fun hp h1 => ?_, fun happ => ?_, fun happ c => ?_⟩
  · simpa [hp] using clockRunning_tick_cases hspend hticks
  · have h1 : ¬ s.comp.pcnt = 1#16 := h1
    simpa [hp, h1] using clockRunning_tick_cases hspend hticks
  · obtain ⟨hno, -⟩ | ⟨-, hno, -⟩ | ⟨-, -, hcomp, hen, hpol⟩ := clockRunning_tick_cases hspend hticks
    · simp [hp] at hno
    · exact absurd h1 hno
    · exact ⟨hcomp, fun c => by simp [hen, hpol, mapEnables, mapPolarities]⟩
  · exact hbuf.trans (if_neg (Bool.eq_false_iff.1 happ))
  · have hest : (clockRunning s).est.ivalid = s.est.ivalid := by simp [clockRunning_tick hspend hticks]
    have hc : (clockRunning s).out.ocrbuf[c]
        = chanVal (chanMode ((clockRunning s).conf.mapAt (clockRunning s).comp.appstep) c) (clockRunning s) := by
      rw [hbuf, if_pos happ]
      simp [mapBuffers]
    rw [← hest]
    exact hc

/-! ### Cold start (R140, R218, R235) -/

/-- The phase of every channel's timer lies below PERIOD (R41). -/
theorem chanPhase_lt {s : State} (h : Inv s) (c : Chan) : (chanPhase s c).toNat < period := by
  obtain ⟨hpha, hphb, -⟩ := h.phases
  unfold chanPhase
  split_ifs
  · exact hpha
  · exact hphb

/-- A compare value of 0 keeps the comparator low through the whole period (R140). -/
theorem high_zero {p : Phase} (hp : p.toNat < period) : high p 0 = false := by
  rw [Bool.eq_false_iff, Ne, high_iff]
  simpa using hp

/-- Settles O50: every compare value is 0 in cold start, so the comparator is low and the polarity alone sets the level. -/
theorem coldStartDrivesCompareValueZero : Obligations.ColdStartDrivesCompareValueZero := by
  intro s c h hcold
  obtain ⟨hduty, hocr, -⟩ := h.cold hcold
  have hzero : s.out.ocr[c] = 0 := by simp [hocr]
  refine ⟨hduty, hzero, ?_⟩
  rw [pin, hzero, high_zero (chanPhase_lt h c)]
  cases s.out.en[c] <;> simp

/-! ### Timer A and its overflows over a run of clocks (R131, R142, R214) -/

/-- What Timer A holds `m` system clocks after it was at BOTTOM with its prescaler at 0, with divisor `P`. -/
structure TimerAAt (P m : Nat) (t : Timers) : Prop where
  psca : t.psca.toNat = m % P
  pha : t.pha.toNat = m / P % 510

/-- The clocks since BOTTOM that the phase and the prescaler of Timer A show (R133, R134). -/
def clocksSinceBottom (P : Nat) (t : Timers) : Nat := t.pha.toNat * P + t.psca.toNat

section
variable {P m : Nat} {t : Timers}

/-- The whole phase steps in the clocks since BOTTOM are the phase (R133). -/
theorem clocksSinceBottom_div (hpsca : t.psca.toNat < P) : clocksSinceBottom P t / P = t.pha.toNat := by
  rw [clocksSinceBottom, Nat.mul_comm, Nat.mul_add_div (Nat.zero_lt_of_lt hpsca), Nat.div_eq_of_lt hpsca, Nat.add_zero]

/-- Timer A shows how many clocks it is past BOTTOM. -/
theorem timerAAt_clocksSinceBottom (hpha : t.pha.toNat < 510) (hpsca : t.psca.toNat < P) :
    TimerAAt P (clocksSinceBottom P t) t where
  psca := by rw [clocksSinceBottom, Nat.mul_add_mod_self_right, Nat.mod_eq_of_lt hpsca]
  pha := by rw [clocksSinceBottom_div hpsca, Nat.mod_eq_of_lt hpha]

/-- One system clock more. -/
theorem TimerAAt.clock (hP : 0 < P) (hP' : P ≤ 1024) (h : TimerAAt P m t) : TimerAAt P (m + 1) (t.clock (some P)) where
  psca := by rw [clock_psca_toNat hP' (h.psca ▸ Nat.mod_lt m hP), h.psca, Nat.mod_add_mod]
  pha := by
    rw [clock_pha_toNat, h.psca, h.pha, succ_div_of_wrap hP]
    split_ifs
    · rw [period, Nat.mod_add_mod]
    · rfl

/-- The overflows of Timer A in `m` clocks from BOTTOM on: `510 * P` clocks for each (R134, R135). -/
def overflowsIn (P m : Nat) : Nat := m / (510 * P)

/-- The overflows are the whole periods in the phase steps. -/
theorem overflowsIn_eq (P m : Nat) : overflowsIn P m = m / P / period := by
  rw [overflowsIn, Nat.mul_comm, Nat.div_div_eq_div_mul]

/-- Where Timer A stands it has not overflowed since BOTTOM. -/
theorem overflowsIn_clocksSinceBottom (hpha : t.pha.toNat < 510) (hpsca : t.psca.toNat < P) :
    overflowsIn P (clocksSinceBottom P t) = 0 := by
  rw [overflowsIn_eq, clocksSinceBottom_div hpsca, Nat.div_eq_of_lt hpha]

/-- A clock adds an overflow exactly when it makes a tick (R142). -/
theorem TimerAAt.overflowsIn_succ (hP : 0 < P) {s : State} (hdiv : divisorA s = some P) (h : TimerAAt P m s.timers) :
    overflowsIn P (m + 1) = if ticks s then overflowsIn P m + 1 else overflowsIn P m := by
  simp only [ticks_iff hdiv, h.psca, h.pha, overflowsIn_eq, succ_div_of_wrap hP, period]
  by_cases hwrap : m % P + 1 = P
  · simp only [hwrap, if_true, true_and]
    split_ifs <;> omega
  · simp only [hwrap, if_false, false_and]

end

/-! ### A schedule over a run of clocks (R214, R220) -/

/-- The schedule of `s` in a state `u`, `k` ticks later: it waits until as many ticks as PCNT have passed, and has applied its
target from then on. -/
structure ScheduleAfterTicks (s : State) (k : Nat) (u : State) : Prop where
  waits : k < s.comp.pcnt.toNat →
    u.comp = { s.comp with pcnt := u.comp.pcnt } ∧ u.comp.pcnt.toNat + k = s.comp.pcnt.toNat
    ∧ u.out.en = s.out.en ∧ u.out.pol = s.out.pol
  applied : s.comp.pcnt.toNat ≤ k → u.comp.pend = false ∧ u.comp.appstep = s.comp.ptgt ∧ u.comp.appv = true

/-- A schedule waits before the first tick: its count is at least 1 (R212). -/
theorem scheduleAfterTicks_zero {s : State} (h : Inv s) (hpend : s.comp.pend = true) : ScheduleAfterTicks s 0 s where
  waits _ := ⟨rfl, rfl, rfl, rfl⟩
  applied hle := by
    obtain ⟨-, hne, -⟩ := h.scheduled hpend
    exact absurd (BitVec.eq_of_toNat_eq (Nat.le_zero.1 hle)) hne

section
variable {s u : State} {k : Nat}

/-- A clock without a tick leaves the schedule (R214). -/
theorem ScheduleAfterTicks.between (h : ScheduleAfterTicks s k u) (hspend : u.spend = false) (hticks : ticks u = false) :
    ScheduleAfterTicks s k (clockRunning u) := by
  obtain ⟨hcomp, hen, hpol⟩ := clockRunning_between_comp hspend hticks
  refine ⟨?_, ?_⟩ <;> rw [hcomp]
  · rw [hen, hpol]
    exact h.waits
  · exact h.applied

/-- A tick counts a waiting schedule down, applies it at its last count, and leaves an applied one (R214). -/
theorem ScheduleAfterTicks.tick (hpend : s.comp.pend = true) (h : ScheduleAfterTicks s k u) (hspend : u.spend = false)
    (hticks : ticks u = true) : ScheduleAfterTicks s (k + 1) (clockRunning u) := by
  have hcases := clockRunning_tick_cases hspend hticks
  obtain hlt | hle := lt_or_ge k s.comp.pcnt.toNat
  · obtain ⟨hcomp, hcount, hen, hpol⟩ := h.waits hlt
    have hp : u.comp.pend = true := by rw [hcomp, hpend]
    have htgt : u.comp.ptgt = s.comp.ptgt := by rw [hcomp]
    obtain ⟨hno, -⟩ | ⟨-, h1, hcomp', hen', hpol'⟩ | ⟨-, h1, hcomp', -⟩ := hcases
    · simp [hp] at hno
    · have h1 : u.comp.pcnt.toNat ≠ 1 := fun he => h1 (BitVec.eq_of_toNat_eq he)
      have hdown : (u.comp.pcnt - 1).toNat = u.comp.pcnt.toNat - 1 := by bv_omega
      refine ⟨fun _ => ⟨by rw [hcomp', hcomp], ?_, hen'.trans hen, hpol'.trans hpol⟩, fun hle => by omega⟩
      rw [hcomp', hdown]
      omega
    · have h1 : u.comp.pcnt.toNat = 1 := by rw [h1]; rfl
      refine ⟨fun hlt => by omega, fun _ => ?_⟩
      rw [hcomp', htgt]
      exact ⟨rfl, rfl, rfl⟩
  · obtain ⟨hp, happ⟩ := h.applied hle
    obtain ⟨-, hcomp, -⟩ | ⟨hno, -⟩ | ⟨hno, -⟩ := hcases
    · exact ⟨fun hlt => by omega, fun _ => hcomp ▸ ⟨hp, happ⟩⟩
    · simp [hp] at hno
    · simp [hp] at hno

end

/-- A running block without a notification, `m` clocks after Timer A was at BOTTOM, with the schedule of `s`. -/
structure ScheduleAfterClocks (s : State) (P m : Nat) (u : State) : Prop where
  inv : Inv u
  run : u.run = true
  spend : u.spend = false
  divisor : divisorA u = some P
  timer : TimerAAt P m u.timers
  schedule : ScheduleAfterTicks s (overflowsIn P m) u

/-- The schedule at the state it is in, the clocks counted from the BOTTOM before it. -/
theorem scheduleAfterClocks_self {s : State} {P : Nat} (h : Inv s) (hrun : s.run = true) (hspend : s.spend = false)
    (hpend : s.comp.pend = true) (hdiv : divisorA s = some P) :
    ScheduleAfterClocks s P (clocksSinceBottom P s.timers) s := by
  obtain ⟨hpha, -⟩ := h.phases
  obtain ⟨hpsca, -⟩ := h.prescalers hrun P hdiv
  exact ⟨h, hrun, hspend, hdiv, timerAAt_clocksSinceBottom hpha hpsca,
    overflowsIn_clocksSinceBottom hpha hpsca ▸ scheduleAfterTicks_zero h hpend⟩

/-- One system clock more. -/
theorem ScheduleAfterClocks.after_clock {s u : State} {P m : Nat} (hpend : s.comp.pend = true)
    (h : ScheduleAfterClocks s P m u) : ScheduleAfterClocks s P (m + 1) (after (encode .evtSysclk) u) where
  inv := after_inv h.inv _
  run := after_run (by simp) (by simp) h.run
  spend := by simp [after_evtSysclk h.run]
  divisor := (after_divisorA (by simp) h.run).trans h.divisor
  timer := by
    obtain ⟨hP, hP'⟩ := divisorA_bounds h.inv.params h.divisor
    simpa [after_evtSysclk h.run, h.divisor] using h.timer.clock hP hP'
  schedule := by
    obtain ⟨hP, -⟩ := divisorA_bounds h.inv.params h.divisor
    have hclock : ScheduleAfterTicks s (overflowsIn P (m + 1)) (clockRunning u) := by
      rw [h.timer.overflowsIn_succ hP h.divisor]
      split_ifs with hticks
      · exact h.schedule.tick hpend h.spend hticks
      · exact h.schedule.between h.spend (Bool.eq_false_iff.2 hticks)
    rw [after_evtSysclk h.run]
    exact ⟨hclock.waits, hclock.applied⟩

/-- Settles O54, by induction on the clocks; once the target is applied the outputs follow its map by the invariant. -/
theorem scheduleAppliesAtItsTick : Obligations.ScheduleAppliesAtItsTick := by
  intro s u P n h hrun hspend hpend hdiv hu k
  have hfinal : ScheduleAfterClocks s P (clocksSinceBottom P s.timers + (clocks n).count (encode .evtSysclk)) u :=
    finalOf_clock_induction (fun _ _ h => h.after_clock hpend)
      (fun _ _ w hclock (hw : w = encode .evtSysclk) _ => absurd (hw ▸ decode_encode _) hclock)
      (fun _ hw => List.eq_of_mem_replicate hw) (scheduleAfterClocks_self h hrun hspend hpend hdiv) hu
  rw [clocks, List.count_replicate_self] at hfinal
  have hk : ScheduleAfterTicks s k u := hfinal.schedule
  refine ⟨fun hlt => ?_, fun hle => ?_⟩
  · obtain ⟨hcomp, hcount, hen, hpol⟩ := hk.waits hlt
    exact ⟨by rw [hcomp, hpend], hcount, by rw [hcomp], hen, hpol⟩
  · obtain ⟨hdone, hstep, happ⟩ := hk.applied hle
    exact ⟨hdone, hstep, happ, hfinal.inv.applied hfinal.run happ⟩

end Sys2Proof.Machine

namespace Sys2Proof.Machine

/-! ### The duty as a rounded product (R234) -/

/-- The amplitude and the entry play the same part in the duty (R234). -/
theorem dutyOf_comm (a e : Byte) : dutyOf a e = dutyOf e a := by
  rw [dutyOf, dutyOf, Nat.mul_comm]

/-- An entry of 0 gives no duty (R234). -/
theorem dutyOf_zero (a : Byte) : dutyOf a 0 = 0 := by
  simp [dutyOf]

/-- The entry 255 gives the whole amplitude (R234). -/
theorem dutyOf_full (a : Byte) : dutyOf a 255 = a := by
  apply BitVec.eq_of_toNat_eq
  rw [dutyOf_toNat, show (255 : Byte).toNat = 255 from rfl]
  omega

/-- The duty lies less than one half from `a * e / 255`, so it is the nearest integer and no halfway case occurs (R234). -/
theorem dutyOf_nearest (a e : Byte) :
    2 * (a.toNat * e.toNat) < 255 * (2 * (dutyOf a e).toNat + 1)
    ∧ 255 * (2 * (dutyOf a e).toNat) < 2 * (a.toNat * e.toNat) + 255 := by
  rw [dutyOf_toNat]
  omega

/-- A greater entry gives no smaller duty (R234). -/
theorem dutyOf_mono (a : Byte) {e f : Byte} (h : e ≤ f) : dutyOf a e ≤ dutyOf a f := by
  rw [BitVec.le_def] at h ⊢
  rw [dutyOf_toNat, dutyOf_toNat]
  exact Nat.div_le_div_right (Nat.add_le_add_right (Nat.mul_le_mul_left _ h) _)

/-- The last entry of a conforming table is the greatest (R232). -/
theorem envAt_le_last {cfg : Config} (h : cfg.romConforms = true) (i : Byte) : envAt cfg i ≤ envAt cfg 255 := by
  have hmem : envAt cfg i ∈ cfg.envRom.toList := Vector.mem_toList_iff.2 (Vector.getElem_mem i.isLt)
  have hbounds := List.all_eq_true.1 h _ hmem
  rw [Bool.and_eq_true] at hbounds
  exact of_decide_eq_true hbounds.2

/-- Settles O45: the formula, the rounding, and the order of the entries. -/
theorem dutyIsRoundedToNearest : Obligations.DutyIsRoundedToNearest := by
  intro a e
  rw [Nat.mul_assoc]
  obtain ⟨hbelow, habove⟩ := dutyOf_nearest a e
  exact ⟨dutyOf_toNat a e, hbelow, habove, dutyOf_le a e, dutyOf_zero a, (dutyOf_comm 0 e).trans (dutyOf_zero e),
    (dutyOf_comm 255 e).trans (dutyOf_full e), dutyOf_full a, fun _ => dutyOf_mono a,
    fun _ i hconf => dutyOf_mono a (envAt_le_last hconf i), by decide⟩

/-! ### States that differ in the wrap signal alone (R238) -/

/-- The two states differ at most in OVR. -/
def SameButOvr (s t : State) : Prop := ∃ b, t = { s with interp.ovr := b }

/-- Equal states do not differ. -/
theorem SameButOvr.of_eq {s t : State} (h : t = s) : SameButOvr s t := ⟨s.interp.ovr, h⟩

/-- One branch for both states. -/
theorem SameButOvr.ite {c : Prop} [Decidable c] {s t s' t' : State} (h : SameButOvr s t) (h' : SameButOvr s' t') :
    SameButOvr (if c then s else s') (if c then t else t') := by
  split_ifs
  · exact h
  · exact h'

section
variable {s t : State}

/-! The host's operations and the sensor event (R160, R262, R264) -/

/-- Recording an error does not read OVR (R300). -/
theorem SameButOvr.recordError (h : SameButOvr s t) (e : ErrorCode) :
    SameButOvr (recordError e s) (recordError e t) := by
  obtain ⟨b, rfl⟩ := h
  cases e <;> exact ⟨b, rfl⟩

/-- A write does not read OVR (R262). -/
theorem SameButOvr.writeReg (h : SameButOvr s t) (r : Reg) (d : Byte) : SameButOvr (writeReg r d s) (writeReg r d t) := by
  have hrefused := h.recordError
  obtain ⟨b, rfl⟩ := h
  unfold Machine.writeReg
  cases regAccess r with
  | ro => exact hrefused .rowr
  | rwl => exact .ite (hrefused .lockwr) ⟨b, rfl⟩
  | rw => exact ⟨b, rfl⟩

/-- The side effect of a read does not read OVR (R94). -/
theorem SameButOvr.snapshot (h : SameButOvr s t) (r : Reg) : SameButOvr (snapshot r s) (snapshot r t) := by
  obtain ⟨b, rfl⟩ := h
  cases r <;> exact ⟨b, rfl⟩

/-- STATUS is the one register that shows OVR (R60, R62). -/
theorem SameButOvr.regValue_eq (h : SameButOvr s t) {r : Reg} (hr : r ≠ .status) : regValue r t = regValue r s := by
  obtain ⟨b, rfl⟩ := h
  cases r with
  | status => exact absurd rfl hr
  | _ => rfl

/-- START does not read OVR: ignored, it leaves it, and what a successful one writes clears it (R264). -/
theorem SameButOvr.startBlock (h : SameButOvr s t) : SameButOvr (startBlock s) (startBlock t) := by
  have hfault := h.recordError .config
  obtain ⟨b, rfl⟩ := h
  exact .ite ⟨b, rfl⟩ (.ite (.of_eq rfl) hfault)

/-- The latch does not read OVR (R160). -/
theorem SameButOvr.latchSensor (h : SameButOvr s t) (code : Byte) :
    SameButOvr (latchSensor code s) (latchSensor code t) := by
  obtain ⟨b, rfl⟩ := h
  refine .ite ?_ ⟨b, rfl⟩
  cases hspend : s.spend <;> exact ⟨b, by simp [hspend, Machine.recordError]⟩

/-! The tick service (R233) -/

/-- The compensator tick does not read OVR (R214). -/
theorem SameButOvr.compTick (h : SameButOvr s t) : SameButOvr (compTick s) (compTick t) := by
  obtain ⟨b, rfl⟩ := h
  exact .ite (.ite ⟨b, rfl⟩ ⟨b, rfl⟩) ⟨b, rfl⟩

/-- Setting the duty does not read OVR (R233). -/
theorem SameButOvr.setDuty (h : SameButOvr s t) : SameButOvr (setDuty s) (setDuty t) := by
  obtain ⟨b, rfl⟩ := h
  rw [setDuty_eq, setDuty_eq]
  exact ⟨b, rfl⟩

/-- The advance reads OVR for OVR alone (R236). -/
theorem SameButOvr.advanceFp (h : SameButOvr s t) : SameButOvr (advanceFp s) (advanceFp t) := by
  obtain ⟨b, rfl⟩ := h
  exact ⟨b || fpOverruns s.interp.fp s.est.rate, rfl⟩

/-- The compare buffers do not show OVR (R237). -/
theorem SameButOvr.writeBuffers (h : SameButOvr s t) : SameButOvr (writeBuffers s) (writeBuffers t) := by
  obtain ⟨b, rfl⟩ := h
  exact .ite ⟨b, rfl⟩ ⟨b, rfl⟩

/-- The tick service passes OVR on to OVR alone (R233, R238). -/
theorem SameButOvr.tickService (h : SameButOvr s t) : SameButOvr (tickService s) (tickService t) :=
  h.compTick.setDuty.advanceFp.writeBuffers

/-! The sensor service (R163) -/

/-- An accepted transition clears OVR and does not read it (R166, R236). -/
theorem SameButOvr.accept_eq (h : SameButOvr s t) (p : StepIx) (d : Direction) : accept p d t = accept p d s := by
  obtain ⟨b, rfl⟩ := h
  unfold accept recordSample
  cases s.interval.refv <;> rfl

/-- With no position known the sensor service does not read OVR, and an acquisition clears it (R163, R165). -/
theorem SameButOvr.serviceUnplaced (h : SameButOvr s t) : SameButOvr (serviceUnplaced s) (serviceUnplaced t) := by
  have hfault := h.recordError .sensor
  obtain ⟨b, rfl⟩ := h
  unfold Machine.serviceUnplaced
  cases s.conf.findStep s.sensin with
  | some j => exact .of_eq rfl
  | none => exact hfault

/-- With a position known the sensor service does not read OVR (R163). -/
theorem SameButOvr.servicePlaced (h : SameButOvr s t) : SameButOvr (servicePlaced s) (servicePlaced t) := by
  have hfault := h.recordError .sensor
  have haccept (p : StepIx) (d : Direction) : SameButOvr (accept p d s) (accept p d t) := .of_eq (h.accept_eq p d)
  obtain ⟨b, rfl⟩ := h
  exact .ite (haccept _ _) (.ite (haccept _ _) (.ite ⟨b, rfl⟩ hfault))

/-- The sensor service does not read OVR (R163). -/
theorem SameButOvr.sensorService (h : SameButOvr s t) : SameButOvr (sensorService s) (sensorService t) := by
  have hplaced := h.servicePlaced
  have hunplaced := h.serviceUnplaced
  obtain ⟨b, rfl⟩ := h
  exact .ite hplaced hunplaced

/-! One system clock (R131) and one delivered word (R260) -/

/-- The timers and the overflow count do not read OVR (R131, R143). -/
theorem SameButOvr.clockCount (h : SameButOvr s t) : SameButOvr (clockCount s) (clockCount t) := by
  obtain ⟨b, rfl⟩ := h
  exact .ite ⟨b, rfl⟩ ⟨b, rfl⟩

/-- The alignment check does not read OVR (R138). -/
theorem SameButOvr.checkAlignment (h : SameButOvr s t) : SameButOvr (checkAlignment s) (checkAlignment t) := by
  obtain ⟨b, rfl⟩ := h
  exact .ite ⟨b, rfl⟩ ⟨b, rfl⟩

/-- A clock up to its alignment check does not read OVR (R131). -/
theorem SameButOvr.clockCheck (h : SameButOvr s t) : SameButOvr (clockCheck s) (clockCheck t) := by
  have hcount := h.clockCount
  obtain ⟨b, rfl⟩ := h
  exact .ite hcount.checkAlignment hcount

/-- A clock up to its tick service passes OVR on to OVR alone (R131). -/
theorem SameButOvr.clockTick (h : SameButOvr s t) : SameButOvr (clockTick s) (clockTick t) := by
  have hcheck := h.clockCheck
  obtain ⟨b, rfl⟩ := h
  exact .ite hcheck.tickService hcheck

/-- Servicing a notification does not read OVR (R161). -/
theorem SameButOvr.serviceSensor (h : SameButOvr s t) : SameButOvr (serviceSensor s) (serviceSensor t) := by
  obtain ⟨b, rfl⟩ := h
  have hclear : SameButOvr { s with spend := false } { s with interp.ovr := b, spend := false } := ⟨b, rfl⟩
  exact .ite hclear.sensorService ⟨b, rfl⟩

/-- A system clock, running or stopped, passes OVR on to OVR alone (R131, R144). -/
theorem SameButOvr.clock (h : SameButOvr s t) :
    SameButOvr (if s.run then clockRunning s else s) (if t.run then clockRunning t else t) := by
  have hclock : SameButOvr (clockRunning s) (clockRunning t) := h.clockTick.serviceSensor
  obtain ⟨b, rfl⟩ := h
  exact .ite hclock ⟨b, rfl⟩

/-- The same read-data output in both states. -/
theorem SameButOvr.withRdata (h : SameButOvr s t) (r : Option Byte) :
    SameButOvr { s with rdata := r } { t with rdata := r } := by
  obtain ⟨b, rfl⟩ := h
  exact ⟨b, rfl⟩

/-- A delivered word that is no read of STATUS passes OVR on to OVR alone (R238, R260). -/
theorem SameButOvr.after (h : SameButOvr s t) {w : OpWord} (hw : decode w ≠ some (.rd 0x01)) :
    SameButOvr (after w s) (after w t) := by
  unfold Machine.after
  cases hd : decode w with
  | none => exact (h.recordError .illop).withRdata none
  | some i =>
    cases i with
    | wr a d => exact (h.writeReg (regAt a) d).withRdata none
    | rd a =>
      have hstatus : regAt a ≠ .status := fun hr => hw (by rw [hd, regAt_eq_iff.1 hr]; rfl)
      dsimp only
      rw [h.regValue_eq hstatus]
      exact (h.snapshot (regAt a)).withRdata _
    | nop => exact h.withRdata none
    | start => exact h.startBlock.withRdata none
    | evtSysclk => exact h.clock.withRdata none
    | evtSensor code => exact (h.latchSensor code).withRdata none
    | stop | clrdiag =>
      obtain ⟨b, rfl⟩ := h
      exact ⟨b, rfl⟩
    | evtReset =>
      obtain ⟨b, rfl⟩ := h
      exact .of_eq rfl

end

/-- Settles O56: a read of STATUS returns OVR and changes nothing, and no other word passes it on to anything but itself. -/
theorem wrapSignalIsAdvisory : Obligations.WrapSignalIsAdvisory := by
  intro w s t u b ht hu
  obtain rfl := eq_after_of_deliver ht
  obtain rfl := eq_after_of_deliver hu
  by_cases hw : decode w = some (.rd 0x01)
  · refine ⟨?_, fun hno => absurd hw hno⟩
    simp only [after, hw]
    rfl
  · obtain ⟨c, hc⟩ := SameButOvr.after ⟨b, rfl⟩ hw
    rw [hc]
    exact ⟨rfl, fun _ => rfl⟩

end Sys2Proof.Machine

namespace Sys2Proof.Machine

/-! ### One operation as a step (R260) -/

/-- An operation leads to the state its word leads to (R260, R314). -/
theorem exec_eq_next_after (i : Instr) (s : State) : exec i s = .next (after (encode i) s) :=
  (deliver_decoded (decode_encode i) s).symm.trans (deliver_next _ s)

/-- `withFetchWord` offers the word whose number it is given (R110, log 1). -/
theorem withFetchWord_toNat (s : State) (w : OpWord) : s.withFetchWord 16 w.toNat = offer w s := by
  rw [State.withFetchWord, Nat.mod_eq_of_lt w.isLt, BitVec.ofNat_toNat, BitVec.setWidth_eq]

/-- Offering the word just taken gives back the state (log 1). -/
theorem offer_taken {s : State} {w : OpWord} {rest : List OpWord} (h : s.port = w :: rest) :
    offer w { s with port := rest } = s := by
  simp [offer, ← h]

/-- Settles O6: a step delivers the oldest word, and a delivered word runs what it decodes to. -/
theorem stepRunsTheDecodedWord : Obligations.StepRunsTheDecodedWord := by
  intro s w rest hport
  have hstep : step s = deliver w { s with port := rest } := step_eq_deliver_of_port_cons hport
  refine ⟨fun i hi => hstep.trans (deliver_decoded hi _), fun hnone => hstep.trans (deliver_reserved hnone _), ?_⟩
  rw [withFetchWord_toNat, offer_taken hport]

/-! ### Reading a register (R94, R261) -/

/-- A read changes no field of the state but the read data and the shadows (R94, R261). -/
theorem exec_rd {r : Reg} {s : State} {b : Byte} {sh : Shadows} (hb : regValue r s = b) (hsh : (snapshot r s).shadow = sh) :
    exec (.rd (regAddr r)) s = .next { s with rdata := some b, shadow := sh } := by
  subst hb hsh
  rw [exec, execRd, regAt_regAddr]
  cases r <;> rfl

/-- The word 0x4000 | (a << 8) with low byte `b` reads `a`, and is reserved unless `b` is 0 (R114, R261). -/
theorem decode_read_word (a : RegAddr) (b : Byte) :
    decode (.ofNat 16 (0x4000 + a.toNat * 256 + b.toNat)) = if b = 0 then some (.rd a) else none := by
  have ha := a.isLt
  have hb := b.isLt
  split_ifs with h0
  · apply decode_eq_some_of_toNat
    simp [encode, h0]
    omega
  · have hpos : b.toNat ≠ 0 := fun h => h0 (BitVec.eq_of_toNat_eq h)
    apply decode_eq_none_of_toNat
    intro i
    cases i <;> simp [encode] <;> omega

/-- The address of OCR[c] (R60). -/
theorem ofNat_eq_regAddr_ocr (c : Chan) : BitVec.ofNat 6 (0x1C + c.val) = regAddr (.ocr c) := by revert c; decide

/-- The address of SEQ[i] (R60). -/
theorem ofNat_eq_regAddr_seq (i : Fin 16) : BitVec.ofNat 6 (0x20 + i.val) = regAddr (.seq (.ofNat 4 i.val)) := by
  revert i; decide

/-- The address of CHMAP[i] (R60). -/
theorem ofNat_eq_regAddr_chmap (i : Fin 16) : BitVec.ofNat 6 (0x30 + i.val) = regAddr (.chmap (.ofNat 4 i.val)) := by
  revert i; decide

/-- SEQ at a numeral index (R38). -/
theorem seqAt_ofNat (c : Conf) (i : Fin 16) : c.seqAt (.ofNat 4 i.val) = c.seq[i] := by simp [Conf.seqAt]

/-- CHMAP at a numeral index (R56). -/
theorem mapAt_ofNat (c : Conf) (i : Fin 16) : c.mapAt (.ofNat 4 i.val) = c.chmap[i] := by simp [Conf.mapAt]

/-- CTRL with the two modes spelled out (R61). -/
theorem ctrlByte_eq (s : State) : ctrlByte s = 0b000#3 ++ BitVec.ofBool (decide (s.conf.fpmode = .saturate))
    ++ BitVec.ofBool (decide (s.conf.phmode = .advance)) ++ s.conf.fclass := by
  unfold ctrlByte
  cases s.conf.fpmode <;> cases s.conf.phmode <;> rfl

/-- STATUS with the direction spelled out (R62). -/
theorem statusByte_eq (s : State) : statusByte s = BitVec.ofBool s.comp.pend ++ BitVec.ofBool s.diag.drift
    ++ BitVec.ofBool s.interp.ovr ++ BitVec.ofBool (decide (s.seqr.dir = .reverse)) ++ BitVec.ofBool s.est.ivalid
    ++ BitVec.ofBool s.seqr.pv ++ BitVec.ofBool s.cfgflt ++ BitVec.ofBool s.run := by
  unfold statusByte packByte
  cases s.seqr.dir <;> rfl

/-- ERR with its four reserved bits as one field (R63). -/
theorem errByte_eq (s : State) : errByte s = 0b0000#4 ++ BitVec.ofBool s.diag.slost ++ BitVec.ofBool s.diag.rowr
    ++ BitVec.ofBool s.diag.lockwr ++ BitVec.ofBool s.diag.illop := by
  have hbits : ∀ b3 b2 b1 b0 : Bool, packByte false false false false b3 b2 b1 b0
      = 0b0000#4 ++ BitVec.ofBool b3 ++ BitVec.ofBool b2 ++ BitVec.ofBool b1 ++ BitVec.ofBool b0 := by decide
  exact hbits _ _ _ _

/-- The three shadow bytes of the IntervalSample as numbers (R52, R76). -/
theorem shadow_bytes (v : BitVec 24) :
    v.extractLsb' 0 8 = .ofNat 8 (v.toNat % 256) ∧ v.extractLsb' 8 8 = .ofNat 8 (v.toNat / 256 % 256)
    ∧ v.extractLsb' 16 8 = .ofNat 8 (v.toNat / 65536) := by
  refine ⟨?_, ?_, ?_⟩ <;> apply BitVec.eq_of_toNat_eq <;> simp [Nat.shiftRight_eq_div_pow]

/-- Settles O12: the register at each address, with its byte and the shadow it loads as numbers. -/
theorem readReturnsTheNamedByte : Obligations.ReadReturnsTheNamedByte := by
  refine ⟨decode_read_word, fun s => ?_⟩
  obtain ⟨hicHi, hifLo, hifHi⟩ := shadow_bytes s.shadow.iv
  exact ⟨exec_rd (r := .ctrl) (ctrlByte_eq s) rfl, exec_rd (r := .status) (statusByte_eq s) rfl,
    exec_rd (r := .err) (errByte_eq s) rfl,
    exec_rd (r := .seqlen) rfl rfl, exec_rd (r := .posapp) rfl rfl, exec_rd (r := .pstat) rfl rfl,
    exec_rd (r := .phofs) rfl rfl, exec_rd (r := .pwmmax) rfl rfl, exec_rd (r := .alignLo) (lo9_eq _) rfl,
    exec_rd (r := .alignHi) (hi9_eq _) rfl, exec_rd (r := .duty) rfl rfl, exec_rd (r := .sfcnt) rfl rfl,
    exec_rd (r := .sensin) rfl rfl, exec_rd (r := .outen) rfl rfl,
    exec_rd (r := .rateLo) (lo16_eq _) (by rw [snapshot, hi16_eq]), exec_rd (r := .rateHi) rfl rfl,
    exec_rd (r := .fpLo) (lo16_eq _) (by rw [snapshot, hi16_eq]), exec_rd (r := .fpHi) rfl rfl,
    exec_rd (r := .icLo) (lo16_eq _) (by rw [snapshot, ivHigh_eq]), exec_rd (r := .icHi) hicHi rfl,
    exec_rd (r := .ifLo) hifLo rfl, exec_rd (r := .ifHi) hifHi rfl,
    exec_rd (r := .ovfLo) (lo16_eq _) (by rw [snapshot, hi16_eq]), exec_rd (r := .ovfHi) rfl rfl,
    exec_rd (r := .phaLo) (lo9_eq _) (by rw [snapshot, hi9_eq]), exec_rd (r := .phaHi) rfl rfl,
    exec_rd (r := .phbLo) (lo9_eq _) (by rw [snapshot, hi9_eq]), exec_rd (r := .phbHi) rfl rfl,
    fun c => ofNat_eq_regAddr_ocr c ▸ exec_rd rfl rfl,
    fun i => ofNat_eq_regAddr_seq i ▸ exec_rd (seqAt_ofNat s.conf i) rfl,
    fun i => ofNat_eq_regAddr_chmap i ▸ exec_rd (mapAt_ofNat s.conf i) rfl⟩

/-! ### Writing a register (R262) -/

/-- A write of a read-only register sets ROWR alone (R262). -/
theorem exec_wr_of_readOnly {a : RegAddr} (h : regAccess (regAt a) = .ro) (d : Byte) (s : State) :
    exec (.wr a d) s = .next { s with rdata := none, diag.rowr := true } := by
  have e : writeReg (regAt a) d s = recordError .rowr s := by simp [writeReg, h]
  rw [exec, execWr, e]
  rfl

/-- A write of a run-locked register while RUN = 1 sets LOCKWR alone (R262). -/
theorem exec_wr_of_locked {a : RegAddr} (h : regAccess (regAt a) = .rwl) {s : State} (hrun : s.run = true) (d : Byte) :
    exec (.wr a d) s = .next { s with rdata := none, diag.lockwr := true } := by
  have e : writeReg (regAt a) d s = recordError .lockwr s := by simp [writeReg, h, hrun]
  rw [exec, execWr, e]
  rfl

/-- Of a stopped block, a write of a register that is not read-only stores its byte and does nothing else (R262). -/
theorem exec_wr_of_stopped {s : State} (hrun : s.run = false) {r : Reg} (hacc : regAccess r ≠ .ro) {d : Byte} {c : Conf}
    (hc : s.conf.store r d = c) : exec (.wr (regAddr r) d) s = .next { s with rdata := none, conf := c } := by
  rw [exec_eq_next_after, after_wr_of_stopped hrun hacc, hc]

/-- The read-only registers of the low half are those that no row of R262 writes (R60). -/
theorem regAccess_eq_ro_of_low : ∀ a : RegAddr, a ∉ [0x00#6, 0x03#6, 0x06#6, 0x07#6, 0x08#6, 0x09#6] → a.toNat < 0x20 →
    regAccess (regAt a) = .ro := by decide

/-- The run-locked registers (R60). -/
theorem regAccess_eq_rwl_of_mem : ∀ a : RegAddr, a ∈ [0x00#6, 0x03#6, 0x06#6, 0x08#6, 0x09#6] ∨ 0x20 ≤ a.toNat →
    regAccess (regAt a) = .rwl := by decide

/-- A write of CTRL, its fields as numbers (R61). -/
theorem setCtrl_eq (d : Byte) (c : Conf) : c.setCtrl d = { c with
    fclass := .ofNat 3 (d.toNat % 8)
    phmode := (if d.toNat / 8 % 2 = 1 then .advance else .delay)
    fpmode := (if d.toNat / 16 % 2 = 1 then .saturate else .wrap) } := by
  have hfields : ∀ d : Byte, d.extractLsb' 0 3 = .ofNat 3 (d.toNat % 8)
      ∧ PhaseMode.ofBit (d.getLsbD 3) = (if d.toNat / 8 % 2 = 1 then .advance else .delay)
      ∧ FpMode.ofBit (d.getLsbD 4) = (if d.toNat / 16 % 2 = 1 then .saturate else .wrap) := by decide
  obtain ⟨hclass, hph, hfp⟩ := hfields d
  rw [Conf.setCtrl, hclass, hph, hfp]

/-- A 9-bit value joined from its two bytes, as a number (R69). -/
theorem join9_eq (top : Bool) (low : Byte) : join9 top low = .ofNat 9 (top.toNat * 256 + low.toNat) := by
  revert top low; decide

/-- A write of ALIGN_LO as a number (R69). -/
theorem setAlignLo_eq (d : Byte) (c : Conf) :
    c.setAlignLo d = { c with align := .ofNat 9 (c.align.toNat / 256 * 256 + d.toNat) } := by
  have htop : ∀ v : BitVec 9, (v.getLsbD 8).toNat = v.toNat / 256 := by decide
  rw [Conf.setAlignLo, join9_eq, htop]

/-- A write of ALIGN_HI as a number (R69). -/
theorem setAlignHi_eq (d : Byte) (c : Conf) :
    c.setAlignHi d = { c with align := .ofNat 9 (d.toNat % 2 * 256 + c.align.toNat % 256) } := by
  have hbit : ∀ d : Byte, (d.getLsbD 0).toNat = d.toNat % 2 := by decide
  rw [Conf.setAlignHi, join9_eq, hbit, lo9_eq, BitVec.toNat_ofNat, Nat.mod_mod]

/-- A store into SEQ at a numeral index (R262). -/
theorem store_seq_ofNat (i : Fin 16) (d : Byte) (c : Conf) :
    c.store (.seq (.ofNat 4 i.val)) d = { c with seq := c.seq.set i.val d } := by
  simp [Conf.store]

/-- A store into CHMAP at a numeral index (R262). -/
theorem store_chmap_ofNat (i : Fin 16) (d : Byte) (c : Conf) :
    c.store (.chmap (.ofNat 4 i.val)) d = { c with chmap := c.chmap.set i.val d } := by
  simp [Conf.store]

/-- Settles O14: the access code of each address decides between the two refusals and the store. -/
theorem writeIsStoredOrRefused : Obligations.WriteIsStoredOrRefused := by
  intro s d
  refine ⟨fun a => decode_eq_some_of_toNat ?_, fun a hmem hlow => exec_wr_of_readOnly (regAccess_eq_ro_of_low a hmem hlow) d s,
    fun a ha hrun => exec_wr_of_locked (regAccess_eq_rwl_of_mem a ha) hrun d, rfl, fun hrun => ?_⟩
  · have ha := a.isLt
    have hd := d.isLt
    simp [encode]
    omega
  · have hstored {r : Reg} {c : Conf} (hacc : regAccess r ≠ .ro) (hc : s.conf.store r d = c) :
        exec (.wr (regAddr r) d) s = .next { s with rdata := none, conf := c } := exec_wr_of_stopped hrun hacc hc
    exact ⟨hstored (r := .ctrl) nofun (setCtrl_eq d s.conf), hstored (r := .seqlen) nofun rfl,
      hstored (r := .phofs) nofun rfl, hstored (r := .alignLo) nofun (setAlignLo_eq d s.conf),
      hstored (r := .alignHi) nofun (setAlignHi_eq d s.conf),
      fun i => ofNat_eq_regAddr_seq i ▸ hstored (r := .seq _) nofun (store_seq_ofNat i d s.conf),
      fun i => ofNat_eq_regAddr_chmap i ▸ hstored (r := .chmap _) nofun (store_chmap_ofNat i d s.conf)⟩

/-- Every register but ERR reads the same with ROWR or LOCKWR recorded (R63, R300). -/
theorem regValue_recordError_of_ne_err {q : Reg} (hq : q ≠ .err) {e : ErrorCode} (he : e = .rowr ∨ e = .lockwr) (s : State) :
    regValue q (recordError e s) = regValue q s := by
  cases q with
  | err => exact absurd rfl hq
  | _ => obtain rfl | rfl := he <;> rfl

/-- ERR with ROWR recorded reads as before with its bit set (R63). -/
theorem errByte_rowr (s : State) : errByte (recordError .rowr s) = errByte s ||| 0x04 := by
  have hbits : ∀ b3 b2 b1 b0 : Bool, packByte false false false false b3 true b1 b0
      = packByte false false false false b3 b2 b1 b0 ||| 0x04 := by decide
  exact hbits _ _ _ _

/-- ERR with LOCKWR recorded reads as before with its bit set (R63). -/
theorem errByte_lockwr (s : State) : errByte (recordError .lockwr s) = errByte s ||| 0x02 := by
  have hbits : ∀ b3 b2 b1 b0 : Bool, packByte false false false false b3 b2 true b0
      = packByte false false false false b3 b2 b1 b0 ||| 0x02 := by decide
  exact hbits _ _ _ _

/-- Settles O16: a refused write records ROWR or LOCKWR, which ERR alone shows. -/
theorem refusedWriteIsSeenInErrAlone : Obligations.RefusedWriteIsSeenInErrAlone := by
  intro s a d hrefused
  have hother {e : ErrorCode} (he : e = .rowr ∨ e = .lockwr) (b : RegAddr) (hb : b ≠ 0x02) :
      regValue (regAt b) { recordError e s with rdata := none } = regValue (regAt b) s := by
    rw [regValue_withRdata, regValue_recordError_of_ne_err (fun h => hb (regAt_eq_iff.1 h)) he]
  refine ⟨_, rfl, ?_⟩
  obtain ⟨hro, e⟩ | ⟨hl, -, e⟩ | ⟨hacc, -⟩ := writeReg_cases (regAt a) d s
  · rw [e, if_pos hro, regValue_withRdata]
    exact ⟨hother (.inl rfl), errByte_rowr s⟩
  · rw [e, if_neg (by simp [hl]), regValue_withRdata]
    exact ⟨hother (.inr rfl), errByte_lockwr s⟩
  · obtain hrw | ⟨hl, hrun⟩ := hacc
    · simp [hrw] at hrefused
    · simp [hl, hrun] at hrefused

/-! ### NOP, CLRDIAG and STOP (R263, R266, R267) -/

/-- Settles O18: NOP completes with the state as it is. -/
theorem nopChangesNothing : Obligations.NopChangesNothing := ⟨decode_encode .nop, fun _ => rfl⟩

/-- Settles O19: CLRDIAG writes the diagnostics, and CFGFLT and OVR are none of them. -/
theorem clrdiagClearsTheDiagnosticsAlone : Obligations.ClrdiagClearsTheDiagnosticsAlone :=
  ⟨decode_encode .clrdiag, fun _ => rfl⟩

/-- A channel that is off drives no pin (R140). -/
theorem pin_of_outputsOff {s : State} (h : OutputsOff s) (c : Chan) : pin s c = .z := by
  have hen : s.out.en[c] = false := by simp [show s.out = Outputs.allOff from h, Outputs.allOff]
  simp [pin, hen]

/-- Settles O20: STOP switches every channel off, and a channel that is off drives no pin. -/
theorem stopDisablesEveryOutput : Obligations.StopDisablesEveryOutput :=
  ⟨decode_encode .stop, fun _ => ⟨_, rfl, rfl, pin_of_outputsOff rfl⟩⟩

/-- Settles O49: the invariant switches every channel of a stopped block off. -/
theorem stoppedBlockDrivesNoPin : Obligations.StoppedBlockDrivesNoPin :=
  fun _ c h hrun => pin_of_outputsOff (h.stopped hrun).1 c

/-! ### Reset (R58, R268, R330) -/

/-- Every register reads 0 after power-on (R58, R330). -/
theorem regValue_reset (r : Reg) : regValue r State.reset = 0 := by
  cases r with
  | ocr c => revert c; decide
  | seq i => revert i; decide
  | chmap i => revert i; decide
  | _ => decide

/-- No register shows the build parameters or the words still to come (R261). -/
theorem regValue_atReset (cfg : Config) (port : List OpWord) (r : Reg) :
    regValue r (State.atReset cfg port) = regValue r State.reset := by
  cases r <;> rfl

/-- Settles O21: a reset leads to the reset state of its parameters and port. -/
theorem resetClearsEveryElement : Obligations.ResetClearsEveryElement := by
  refine ⟨decode_encode .evtReset, fun s => ⟨State.atReset s.cfg s.port, rfl, ?_⟩⟩
  refine ⟨rfl, rfl, rfl, rfl, rfl, rfl, rfl, rfl, rfl, rfl, rfl, rfl, rfl, rfl, rfl, rfl, rfl, ?_, ?_, ?_⟩
  · exact fun a => (regValue_atReset _ _ _).trans (regValue_reset _)
  · exact pin_of_outputsOff rfl
  · intro hcfg hport
    rw [hcfg, hport]
    rfl

/-! ### START (R264, R265, R270) -/

/-- Settles O23: RUN and CFGFLT are tested first, and a check that fails records the configuration fault. -/
theorem startIsIgnoredOrFaults : Obligations.StartIsIgnoredOrFaults := by
  intro s
  refine ⟨fun h => ?_, fun hrun hflt hvalid => ?_⟩
  · have e : startBlock s = s := by obtain h | h := h <;> simp [startBlock, h]
    rw [exec, execStart, e]
    rfl
  · have e : startBlock s = recordError .config s := by simp [startBlock, hrun, hflt, hvalid]
    rw [exec, execStart, e]
    rfl

/-- A START of a stopped block without a fault whose configuration passes the check starts it (R264, R270). -/
theorem exec_start_of_valid {s : State} (hrun : s.run = false) (hflt : s.cfgflt = false) (hvalid : cfgValid s = true) :
    exec .start s = .next { startAcquire (startState s) with rdata := none } := by
  simp [exec, execStart, startBlock, complete, hrun, hflt, hvalid]

/-- A class has one divisor for both timers (R132, R265). -/
theorem classValid_iff {cfg : Config} {fclass : BitVec 3} :
    classValid cfg fclass = true ↔ ∃ p, cfg.prescA[fclass.toNat] = some p ∧ cfg.prescB[fclass.toNat] = some p := by
  simp only [classValid, Bool.and_eq_true, Option.isSome_iff_exists, decide_eq_true_eq]
  constructor
  · rintro ⟨⟨p, hA⟩, heq⟩
    exact ⟨p, hA, heq.symm.trans hA⟩
  · rintro ⟨p, hA, hB⟩
    exact ⟨⟨p, hA⟩, hA.trans hB.symm⟩

/-- The first SEQLEN codes differ from each other (R265). -/
theorem distinct_iff {c : Conf} :
    c.distinct = true ↔ ∀ i j : Fin 16, i < j → j.val < c.seqlen.toNat → c.seq[i] ≠ c.seq[j] := by
  have hlen : c.entries.length = min c.seqlen.toNat 16 := by simp [Conf.entries]
  have hget (k : Nat) (hk : k < c.entries.length) : c.entries[k] = c.seq[k]'(by omega) := by simp [Conf.entries]
  rw [Conf.distinct, decide_eq_true_eq, List.Nodup, List.pairwise_iff_getElem]
  constructor
  · intro h i j hij hj
    have := h i j (by omega) (by omega) hij
    rwa [hget, hget] at this
  · intro h i j hi hj hij
    rw [hget, hget]
    exact h ⟨i, by omega⟩ ⟨j, by omega⟩ hij (by simp; omega)

/-- Settles O22: the check is the conjunction of its four tests, and the three ways a START ends follow it. -/
theorem configurationCheckIsTheFourConditions : Obligations.ConfigurationCheckIsTheFourConditions := by
  intro s
  refine ⟨?_, fun hrun hflt => ?_⟩
  · simp only [cfgValid, confValid, Bool.and_eq_true, decide_eq_true_eq, classValid_iff, distinct_iff, and_assoc]
  · cases hvalid : cfgValid s with
    | true => exact ⟨_, exec_start_of_valid hrun hflt hvalid, by simp, by simpa using hflt⟩
    | false => exact ⟨_, (startIsIgnoredOrFaults s).2 hrun hflt hvalid, hrun, rfl⟩

/-- The two ways the position is taken at START (R270). -/
theorem startAcquire_cases (s : State) :
    (∃ j, s.conf.findStep s.sensin = some j ∧ startAcquire s = applyMap j (placeAt j s))
    ∨ (s.conf.findStep s.sensin = none ∧ startAcquire s = s) := by
  unfold startAcquire
  cases h : s.conf.findStep s.sensin <;> simp

/-- Settles O24: taking the position leaves what START wrote but the position and the map, whose compare values are 0 while DUTY
and IVALID are. -/
theorem startInitialisesTheRunningState : Obligations.StartInitialisesTheRunningState := by
  intro s hrun hflt hvalid
  refine ⟨_, exec_start_of_valid hrun hflt hvalid, ?_⟩
  obtain ⟨j, -, e⟩ | ⟨-, e⟩ := startAcquire_cases (startState s)
  · simp [e, hflt, Outputs.allOff, mapBuffers_cold]
  · simp [e, hflt, Outputs.allOff]

/-- Applying a step's map drives the outputs from it (R215). -/
theorem applyMap_out (p : StepIx) (s : State) : (applyMap p s).out = s.out.drive (s.conf.mapAt p) s := rfl

/-- Settles O25: a code is looked up at its own place, or nowhere. -/
theorem startAcquiresThePosition : Obligations.StartAcquiresThePosition := by
  intro s hrun hflt hvalid
  refine ⟨_, exec_start_of_valid hrun hflt hvalid, fun j hj hcode => ?_, fun hno => ?_⟩
  · have hfind : s.conf.findStep s.sensin = some (.ofNat 4 j.val) := by
      rw [← hcode, ← seqAt_ofNat]
      exact findStep_seqAt hvalid (by simpa)
    have hacq : startAcquire (startState s) = applyMap (.ofNat 4 j.val) (placeAt (.ofNat 4 j.val) (startState s)) := by
      simp [startAcquire, hfind]
    rw [hacq]
    refine ⟨rfl, Nat.mod_eq_of_lt j.isLt, rfl, Nat.mod_eq_of_lt j.isLt, fun c => ?_⟩
    obtain ⟨hen, hpol, -⟩ := channel_of_drive (applyMap_out (.ofNat 4 j.val) (placeAt (.ofNat 4 j.val) (startState s))) c
    rw [mapAt_ofNat] at hen hpol
    exact ⟨hen, hpol⟩
  · have hfind : s.conf.findStep s.sensin = none := by
      rw [Option.eq_none_iff_forall_ne_some]
      intro j hfind
      obtain ⟨hj, hcode⟩ := findStep_some hfind
      exact hno j.toFin hj hcode
    have hacq : startAcquire (startState s) = startState s := by simp [startAcquire, hfind]
    simp [hacq, Outputs.allOff]

end Sys2Proof.Machine

namespace Sys2Proof.Machine

/-! ### Every operation, step and run completes (R314) -/

/-- Every word sequence has a run (R314, R336). -/
theorem exists_runWords (ws : List OpWord) (s : State) : ∃ p, runWords ws s = some p := by
  induction ws generalizing s with
  | nil => exact ⟨(s, []), rfl⟩
  | cons w ws ih =>
    obtain ⟨p, hp⟩ := ih (after w s)
    exact ⟨_, by rw [runWords_cons, hp, Option.map_some]⟩

/-- Every step has a next state: the idle one, or that of the oldest word (R314, log 2). -/
theorem exists_step_eq_next (s : State) : ∃ t, step s = .next t := by
  cases hport : s.port with
  | nil => exact ⟨s, idleStepChangesNothing s hport⟩
  | cons w rest => exact ⟨_, (step_eq_deliver_of_port_cons hport).trans (deliver_next w _)⟩

/-- Settles O8: an operation leads to the state its word leads to, and so do a step and each word of a run. -/
theorem everyOperationCompletes : Obligations.EveryOperationCompletes := by
  refine ⟨fun i s => ⟨_, exec_eq_next_after i s⟩, exists_step_eq_next, fun ws s => ?_⟩
  obtain ⟨p, hp⟩ := exists_runWords ws s
  exact ⟨_, by rw [runOf, hp, Option.map_some]⟩

/-! ### The fatal state (R301, R314) -/

/-- No delivered word but a reset clears CFGFLT (R49, R301). -/
theorem after_cfgflt_of_cfgflt {w : OpWord} (hreset : decode w ≠ some .evtReset) {s : State} (h : s.cfgflt = true) :
    (after w s).cfgflt = true := by
  by_cases hclr : decode w = some .clrdiag
  · simpa [after, hclr] using h
  · obtain ⟨-, -, -, -, -, -, -, hflt⟩ :=
      errorsAreStickyAndSetByTheirOperation w s _ (deliver_next w s) hclr hreset
    exact hflt h

/-- A block with a configuration fault does not run (R264). -/
theorem Inv.run_of_cfgflt {s : State} (h : Inv s) (hflt : s.cfgflt = true) : s.run = false :=
  Bool.eq_false_iff.2 fun hrun => by simp [(h.valid hrun).2] at hflt

/-- Settles O27: the word keeps CFGFLT and the invariant, by which a faulted block is stopped and a stopped one drives no pin. -/
theorem configurationFaultIsFatalUntilReset : Obligations.ConfigurationFaultIsFatalUntilReset := by
  intro w s t hinv hflt hreset h
  obtain rfl := eq_after_of_deliver h
  have hinv' : Inv (after w s) := after_inv hinv w
  have hflt' : (after w s).cfgflt = true := after_cfgflt_of_cfgflt hreset hflt
  have hrun' : (after w s).run = false := hinv'.run_of_cfgflt hflt'
  exact ⟨hflt', hrun', fun c => stoppedBlockDrivesNoPin (after w s) c hinv' hrun'⟩

/-! ### States that differ in the diagnostics and the read data alone (R301) -/

/-- The two states differ at most in the diagnostics and the read-data output. -/
def SameButDiag (s t : State) : Prop := ∃ d b, t = { s with diag := d, rdata := b }

/-- A state does not differ from itself. -/
theorem SameButDiag.refl (s : State) : SameButDiag s s := ⟨s.diag, s.rdata, rfl⟩

/-- The diagnostics and the read data of the one state put into the other give the one. -/
theorem SameButDiag.eq_of_restored {s t : State} (h : SameButDiag s t) : { t with diag := s.diag, rdata := s.rdata } = s := by
  obtain ⟨d, b, rfl⟩ := h
  rfl

/-- One branch for both states. -/
theorem SameButDiag.ite {c : Prop} [Decidable c] {s t s' t' : State} (h : SameButDiag s t) (h' : SameButDiag s' t') :
    SameButDiag (if c then s else s') (if c then t else t') := by
  split_ifs
  · exact h
  · exact h'

/-- The registers that show a diagnostic (R62, R63, R71). -/
def diagRegs : List Reg := [.status, .err, .sfcnt]

/-- The word reads no register that shows a diagnostic. -/
def ReadsNoDiag (w : OpWord) : Prop := ∀ a, decode w = some (.rd a) → regAt a ∉ diagRegs

/-- A word that reads none of the addresses 0x01, 0x02 and 0x0B reads no register that shows a diagnostic (R60). -/
theorem readsNoDiag_of_ne {w : OpWord} (hstatus : decode w ≠ some (.rd 0x01)) (herr : decode w ≠ some (.rd 0x02))
    (hsfcnt : decode w ≠ some (.rd 0x0B)) : ReadsNoDiag w := by
  intro a ha hmem
  simp only [diagRegs, List.mem_cons, List.not_mem_nil, or_false, regAt_eq_iff] at hmem
  obtain rfl | rfl | rfl := hmem
  · exact hstatus ha
  · exact herr ha
  · exact hsfcnt ha

section
variable {s t : State}

/-- Each state may end its operation with a read-data output of its own. -/
theorem SameButDiag.withRdata (h : SameButDiag s t) (b b' : Option Byte) :
    SameButDiag { s with rdata := b } { t with rdata := b' } := by
  obtain ⟨d, _, rfl⟩ := h
  exact ⟨d, b', rfl⟩

/-! The host's operations and the sensor event (R160, R262, R264) -/

/-- An error is recorded in the diagnostics, or in CFGFLT, whatever the diagnostics are (R300, R301). -/
theorem SameButDiag.recordError (h : SameButDiag s t) (e : ErrorCode) :
    SameButDiag (recordError e s) (recordError e t) := by
  obtain ⟨d, b, rfl⟩ := h
  cases e <;> exact ⟨_, b, rfl⟩

/-- A write does not read the diagnostics (R262). -/
theorem SameButDiag.writeReg (h : SameButDiag s t) (r : Reg) (v : Byte) :
    SameButDiag (writeReg r v s) (writeReg r v t) := by
  have hrefused := h.recordError
  obtain ⟨d, b, rfl⟩ := h
  unfold Machine.writeReg
  cases regAccess r with
  | ro => exact hrefused .rowr
  | rwl => exact .ite (hrefused .lockwr) ⟨d, b, rfl⟩
  | rw => exact ⟨d, b, rfl⟩

/-- The side effect of a read does not read the diagnostics (R94). -/
theorem SameButDiag.snapshot (h : SameButDiag s t) (r : Reg) : SameButDiag (snapshot r s) (snapshot r t) := by
  obtain ⟨d, b, rfl⟩ := h
  cases r <;> exact ⟨d, b, rfl⟩

/-- STATUS, ERR and SFCNT are the only registers that show a diagnostic (R60, R62, R63). -/
theorem SameButDiag.regValue_eq (h : SameButDiag s t) {r : Reg} (hr : r ∉ diagRegs) : regValue r t = regValue r s := by
  obtain ⟨d, b, rfl⟩ := h
  cases r with
  | status | err | sfcnt => simp [diagRegs] at hr
  | _ => rfl

/-- Taking the position at START does not read the diagnostics (R270). -/
theorem SameButDiag.startAcquire (h : SameButDiag s t) : SameButDiag (startAcquire s) (startAcquire t) := by
  obtain ⟨d, b, rfl⟩ := h
  unfold Machine.startAcquire
  cases s.conf.findStep s.sensin <;> exact ⟨d, b, rfl⟩

/-- START does not read the diagnostics (R264). -/
theorem SameButDiag.startBlock (h : SameButDiag s t) : SameButDiag (startBlock s) (startBlock t) := by
  have hfault := h.recordError .config
  obtain ⟨d, b, rfl⟩ := h
  have hstart : SameButDiag (startState s) (startState { s with diag := d, rdata := b }) := ⟨d, b, rfl⟩
  exact .ite ⟨d, b, rfl⟩ (.ite hstart.startAcquire hfault)

/-- The latch does not read the diagnostics (R160). -/
theorem SameButDiag.latchSensor (h : SameButDiag s t) (code : Byte) :
    SameButDiag (latchSensor code s) (latchSensor code t) := by
  have hmerged : SameButDiag (if s.spend then Machine.recordError .starve s else s)
      (if t.spend then Machine.recordError .starve t else t) := by
    have hstarve := h.recordError .starve
    obtain ⟨d, b, rfl⟩ := h
    exact .ite hstarve ⟨d, b, rfl⟩
  obtain ⟨d', b', hmerged⟩ := hmerged
  obtain ⟨d, b, rfl⟩ := h
  exact .ite ⟨d', b', congrArg (fun u : State => { u with spend := true, sensin := code }) hmerged⟩ ⟨d, b, rfl⟩

/-! The tick service (R233) -/

/-- The compensator tick does not read the diagnostics (R214). -/
theorem SameButDiag.compTick (h : SameButDiag s t) : SameButDiag (compTick s) (compTick t) := by
  obtain ⟨d, b, rfl⟩ := h
  exact .ite (.ite ⟨d, b, rfl⟩ ⟨d, b, rfl⟩) ⟨d, b, rfl⟩

/-- The duty and the advance do not read the diagnostics (R233, R236). -/
theorem SameButDiag.advanceFp_setDuty (h : SameButDiag s t) :
    SameButDiag (advanceFp (setDuty s)) (advanceFp (setDuty t)) := by
  obtain ⟨d, b, rfl⟩ := h
  rw [setDuty_eq, setDuty_eq]
  exact ⟨d, b, rfl⟩

/-- The compare buffers do not show the diagnostics (R237). -/
theorem SameButDiag.writeBuffers (h : SameButDiag s t) : SameButDiag (writeBuffers s) (writeBuffers t) := by
  obtain ⟨d, b, rfl⟩ := h
  exact .ite ⟨d, b, rfl⟩ ⟨d, b, rfl⟩

/-- The tick service does not read the diagnostics (R233). -/
theorem SameButDiag.tickService (h : SameButDiag s t) : SameButDiag (tickService s) (tickService t) :=
  h.compTick.advanceFp_setDuty.writeBuffers

/-! The sensor service (R163) -/

/-- Arm does not read the diagnostics (R212). -/
theorem SameButDiag.arm (h : SameButDiag s t) (p : StepIx) : SameButDiag (arm p s) (arm p t) := by
  obtain ⟨d, b, rfl⟩ := h
  unfold Machine.arm
  cases s.conf.phmode <;> exact .ite ⟨d, b, rfl⟩ ⟨d, b, rfl⟩

/-- Recording a sample does not read the diagnostics (R191). -/
theorem SameButDiag.recordSample (h : SameButDiag s t) : SameButDiag (recordSample s) (recordSample t) := by
  obtain ⟨d, b, rfl⟩ := h
  exact .ite ⟨d, b, rfl⟩ ⟨d, b, rfl⟩

/-- An accepted transition does not read the diagnostics (R166). -/
theorem SameButDiag.accept (h : SameButDiag s t) (p : StepIx) (dir : Direction) :
    SameButDiag (accept p dir s) (accept p dir t) := by
  refine SameButDiag.arm ?_ p
  obtain ⟨d, b, hsample⟩ := h.recordSample
  rw [hsample]
  exact ⟨d, b, rfl⟩

/-- With no position known the sensor service does not read the diagnostics (R163, R165). -/
theorem SameButDiag.serviceUnplaced (h : SameButDiag s t) : SameButDiag (serviceUnplaced s) (serviceUnplaced t) := by
  have hfault := h.recordError .sensor
  obtain ⟨d, b, rfl⟩ := h
  unfold Machine.serviceUnplaced
  cases s.conf.findStep s.sensin with
  | some j => exact ⟨d, b, rfl⟩
  | none => exact hfault

/-- With a position known the sensor service does not read the diagnostics (R163). -/
theorem SameButDiag.servicePlaced (h : SameButDiag s t) : SameButDiag (servicePlaced s) (servicePlaced t) := by
  have hfault := h.recordError .sensor
  have haccept := h.accept
  obtain ⟨d, b, rfl⟩ := h
  exact .ite (haccept _ _) (.ite (haccept _ _) (.ite ⟨d, b, rfl⟩ hfault))

/-- The sensor service does not read the diagnostics (R163). -/
theorem SameButDiag.sensorService (h : SameButDiag s t) : SameButDiag (sensorService s) (sensorService t) := by
  have hplaced := h.servicePlaced
  have hunplaced := h.serviceUnplaced
  obtain ⟨d, b, rfl⟩ := h
  exact .ite hplaced hunplaced

/-! One system clock (R131) -/

/-- The timers and the overflow count do not read the diagnostics (R131, R143). -/
theorem SameButDiag.clockCount (h : SameButDiag s t) : SameButDiag (clockCount s) (clockCount t) := by
  obtain ⟨d, b, rfl⟩ := h
  exact .ite ⟨d, b, rfl⟩ ⟨d, b, rfl⟩

/-- The alignment check reads Timer A, and DRIFT for DRIFT alone (R138). -/
theorem SameButDiag.checkAlignment (h : SameButDiag s t) : SameButDiag (checkAlignment s) (checkAlignment t) := by
  have hdrift := h.recordError .drift
  obtain ⟨d, b, rfl⟩ := h
  exact .ite hdrift ⟨d, b, rfl⟩

/-- A clock up to its alignment check does not read the diagnostics (R131). -/
theorem SameButDiag.clockCheck (h : SameButDiag s t) : SameButDiag (clockCheck s) (clockCheck t) := by
  have hcount := h.clockCount
  obtain ⟨d, b, rfl⟩ := h
  exact .ite hcount.checkAlignment hcount

/-- A clock up to its tick service does not read the diagnostics (R131). -/
theorem SameButDiag.clockTick (h : SameButDiag s t) : SameButDiag (clockTick s) (clockTick t) := by
  have hcheck := h.clockCheck
  obtain ⟨d, b, rfl⟩ := h
  exact .ite hcheck.tickService hcheck

/-- Servicing a notification does not read the diagnostics (R161). -/
theorem SameButDiag.serviceSensor (h : SameButDiag s t) : SameButDiag (serviceSensor s) (serviceSensor t) := by
  obtain ⟨d, b, rfl⟩ := h
  have hcleared : SameButDiag { s with spend := false } { s with spend := false, diag := d, rdata := b } := ⟨d, b, rfl⟩
  exact .ite hcleared.sensorService ⟨d, b, rfl⟩

/-- A system clock, running or stopped, does not read the diagnostics (R131, R144). -/
theorem SameButDiag.clock (h : SameButDiag s t) :
    SameButDiag (if s.run then clockRunning s else s) (if t.run then clockRunning t else t) := by
  have hclock : SameButDiag (clockRunning s) (clockRunning t) := h.clockTick.serviceSensor
  obtain ⟨d, b, rfl⟩ := h
  exact .ite hclock ⟨d, b, rfl⟩

/-! One delivered word (R260) and a run (R336) -/

/-- A delivered word passes the diagnostics on to the diagnostics and the read data alone (R260, R301). -/
theorem SameButDiag.after (h : SameButDiag s t) (w : OpWord) : SameButDiag (after w s) (after w t) := by
  unfold Machine.after
  cases decode w with
  | none => exact (h.recordError .illop).withRdata _ _
  | some i =>
    cases i with
    | wr a v => exact (h.writeReg (regAt a) v).withRdata _ _
    | rd a => exact (h.snapshot (regAt a)).withRdata _ _
    | nop => exact h.withRdata _ _
    | start => exact h.startBlock.withRdata _ _
    | evtSysclk => exact h.clock.withRdata _ _
    | evtSensor code => exact (h.latchSensor code).withRdata _ _
    | stop | clrdiag =>
      obtain ⟨d, b, rfl⟩ := h
      exact ⟨_, _, rfl⟩
    | evtReset =>
      obtain ⟨d, b, rfl⟩ := h
      exact .refl _

/-- A word that reads no register showing a diagnostic returns the same byte, or none, in both states (R261, R301). -/
theorem SameButDiag.after_rdata (h : SameButDiag s t) {w : OpWord} (hw : ReadsNoDiag w) :
    (Machine.after w t).rdata = (Machine.after w s).rdata := by
  obtain ⟨hread, hother⟩ := readDataIsSetByReadsAlone w s _ (deliver_next w s)
  obtain ⟨hread', hother'⟩ := readDataIsSetByReadsAlone w t _ (deliver_next w t)
  by_cases hrd : ∃ a, decode w = some (.rd a)
  · obtain ⟨a, ha⟩ := hrd
    rw [hread a ha, hread' a ha, h.regValue_eq (hw a ha)]
  · push Not at hrd
    rw [hother hrd, hother' hrd]

/-- Two runs of the same words end in states that differ in the diagnostics and the read data alone, and return the same bytes if
they read no register showing a diagnostic (R301, R336). -/
theorem SameButDiag.runWords (h : SameButDiag s t) {ws : List OpWord} {p q : State × List Byte}
    (hp : runWords ws s = some p) (hq : runWords ws t = some q) :
    SameButDiag p.1 q.1 ∧ ((∀ w ∈ ws, ReadsNoDiag w) → p.2 = q.2) := by
  induction ws generalizing s t p q with
  | nil =>
    obtain rfl := Option.some.inj hp
    obtain rfl := Option.some.inj hq
    exact ⟨h, fun _ => rfl⟩
  | cons w ws ih =>
    rw [runWords_cons, Option.map_eq_some_iff] at hp hq
    obtain ⟨p', hp', rfl⟩ := hp
    obtain ⟨q', hq', rfl⟩ := hq
    obtain ⟨hfinal, hreads⟩ := ih (h.after w) hp' hq'
    refine ⟨hfinal, fun hws => ?_⟩
    rw [List.forall_mem_cons] at hws
    obtain ⟨hw, hws⟩ := hws
    rw [h.after_rdata hw, hreads hws]

end

/-- Settles O55, by induction on the words: each one takes two states that differ in the diagnostics and the read data alone to two
such states, and only STATUS, ERR and SFCNT show a difference. -/
theorem diagnosticsAreNeverRead : Obligations.DiagnosticsAreNeverRead := by
  intro ws s t u d bs cs ht hu
  have h : SameButDiag s { s with diag := d } := ⟨d, s.rdata, rfl⟩
  obtain ⟨hfinal, hreads⟩ := h.runWords ht hu
  refine ⟨hfinal.eq_of_restored, fun hws => hreads fun w hw => ?_⟩
  obtain ⟨hstatus, herr, hsfcnt⟩ := hws w hw
  exact readsNoDiag_of_ne hstatus herr hsfcnt

end Sys2Proof.Machine

namespace Sys2Proof.Machine

/-! ### START after a reset, and START after an earlier run (R332, R335) -/

/-- The configuration of the reset state names no sequence of three steps or more, so the check fails for every choice of build
parameters (R265, R332). -/
theorem cfgValid_atReset (cfg : Config) (port : List OpWord) : cfgValid (State.atReset cfg port) = false := by
  rw [Bool.eq_false_iff]
  intro hvalid
  have hlen : 3 ≤ (State.atReset cfg port).conf.seqlen.toNat := (cfgValid_bounds hvalid).1
  simp [State.atReset] at hlen

/-- With the configuration fault recorded right after reset, CFGFLT is the one bit set in STATUS, which shows no build parameter
(R62, R332). -/
theorem status_configFault_atReset (cfg : Config) (port : List OpWord) :
    regValue .status (recordError .config (State.atReset cfg port)) = 0x02 :=
  calc regValue .status (recordError .config (State.atReset cfg port))
    _ = regValue .status (recordError .config State.reset) := rfl
    _ = 0x02 := by decide

/-- Settles O26: the block is stopped and without a fault, and the check fails, so START records the configuration fault. -/
theorem startStraightAfterResetFaults : Obligations.StartStraightAfterResetFaults := by
  intro cfg port
  have hfault := (startIsIgnoredOrFaults (State.atReset cfg port)).2 rfl rfl (cfgValid_atReset cfg port)
  exact ⟨_, hfault, rfl, rfl, status_configFault_atReset cfg port, rfl⟩

/-- What START writes follows from the build parameters and the configuration; of what it leaves, the port, the read data, the
diagnostics and the shadows may still tell two blocks apart (R264, R335). -/
theorem startState_congr {s u : State} (hcfg : s.cfg = u.cfg) (hconf : s.conf = u.conf) (hflt : s.cfgflt = u.cfgflt)
    (hsensin : s.sensin = u.sensin) :
    startState s = { startState u with port := s.port, rdata := s.rdata, diag := s.diag, shadow := s.shadow } := by
  simp [startState, hcfg, hconf, hflt, hsensin]

/-- Taking the position at START reads neither the port, the read data, the diagnostics nor the shadows (R270). -/
theorem startAcquire_with (port : List OpWord) (b : Option Byte) (d : Diag) (sh : Shadows) (s : State) :
    startAcquire { s with port := port, rdata := b, diag := d, shadow := sh }
      = { startAcquire s with port := port, rdata := b, diag := d, shadow := sh } := by
  unfold startAcquire
  cases s.conf.findStep s.sensin <;> rfl

/-- Settles O28: the two states START writes differ in the fields it leaves, and taking the position reads none of these. -/
theorem restartForgetsTheEarlierRun : Obligations.RestartForgetsTheEarlierRun := by
  intro s u t v hs hu hsflt huflt hvalid hcfg hconf hsensin ht hv
  have huvalid : cfgValid u = true := by rwa [cfgValid, ← hcfg, ← hconf]
  rw [exec_start_of_valid hs hsflt hvalid, startState_congr hcfg hconf (hsflt.trans huflt.symm) hsensin,
    startAcquire_with] at ht
  rw [exec_start_of_valid hu huflt huvalid] at hv
  obtain rfl := Host.Outcome.next.inj ht
  obtain rfl := Host.Outcome.next.inj hv
  rfl

end Sys2Proof.Machine
